-- ==== Sys2Proof/Word.lean ====
section
/-! DEFINITION. The word types of the IDMIX block (00_scope.md R9, R10; 20_memory.md R60, R61). -/
namespace Sys2Proof

/-- A register of the block and the data of one host access: 64 bits, unsigned (R10, R61). -/
abbrev Word := BitVec 64

/-- One byte of a host access (R63). -/
abbrev Byte := BitVec 8

/-- A character code: CHAR_W = 32 bits, compared by equality and nothing else (R5, R160). -/
abbrev CharCode := BitVec 32

/-- A byte offset of the register space, 0x0000 to 0xFFFF (R60). -/
abbrev Offset := BitVec 16

end Sys2Proof
end

