-- ==== Sys2Proof/Syntax.lean ====
section
/-! DEFINITION. The commands of the block, one constructor per row of spec/opcode_table.json (30_encoding.md R92).
No command carries an operand field (R91), so no constructor has an argument. -/
namespace Sys2Proof

/-- The eight commands of R92. -/
inductive Instr where
  /-- OPC 0x01: obfuscate the id in OPA with KEY (R125). -/
  | mix
  /-- OPC 0x02: recover and verify the id from OPA with KEY (R129). -/
  | unmix
  /-- OPC 0x03: the size class of OPA (R115). -/
  | classify
  /-- OPC 0x10: validate ALPHA_STAGE and commit it as the codec (R161). -/
  | codecNew
  /-- OPC 0x11: write OPA in base N into STR (R164). -/
  | codecEncode
  /-- OPC 0x12: read STR as a base-N number (R166). -/
  | codecDecode
  /-- OPC 0x20: mix OPA, then write the MixedValue in base N into STR (R200). -/
  | encode
  /-- OPC 0x21: read STR as a base-N number, then unmix it (R201). -/
  | decode
  deriving DecidableEq, Repr

/-- The keyed commands: those that read KEY, which the Complete step then zeroes (R98). -/
def Instr.keyed : Instr → Bool
  | .mix => true
  | .unmix => true
  | .classify => false
  | .codecNew => false
  | .codecEncode => false
  | .codecDecode => false
  | .encode => true
  | .decode => true

end Sys2Proof
end

