-- ==== Sys2Proof/Decode.lean ====
section
/-! DEFINITION. The command word's format and opcode map, the decoder and the encoder
(30_encoding.md R90, R92, R94, R95; 20_memory.md R63). -/
namespace Sys2Proof

/-- Why a word is no command. In the machine such a word completes with ILLEGAL_CMD (R94). -/
inductive DecodeError where
  /-- Bits 63:8 (RSV) are not all 0 (R90). -/
  | reservedBitsSet
  /-- OPC is none of the eight values of R92. -/
  | unassignedOpcode (opc : BitVec 8)
  /-- Fewer than the eight bytes of a command word were given. -/
  | truncated
  deriving DecidableEq, Repr

/-- One row of the opcode map of R92. -/
structure OpcodeRow where
  opc : BitVec 8
  instr : Instr
  deriving DecidableEq, Repr

/-- The opcode map (R92). -/
def opcodeMap : List OpcodeRow :=
  [⟨0x01#8, .mix⟩, ⟨0x02#8, .unmix⟩, ⟨0x03#8, .classify⟩,
   ⟨0x10#8, .codecNew⟩, ⟨0x11#8, .codecEncode⟩, ⟨0x12#8, .codecDecode⟩,
   ⟨0x20#8, .encode⟩, ⟨0x21#8, .decode⟩]

/-- Field OPC, bits 7:0 of a command word (R90). -/
def opcField (w : Word) : BitVec 8 := w.extractLsb' 0 8

/-- Field RSV, bits 63:8 of a command word (R90). -/
def rsvField (w : Word) : BitVec 56 := w.extractLsb' 8 56

/-- Decode a command word: RSV must be 0, and OPC must be in the map (R90, R92, R94). -/
def decode (w : Word) : Except DecodeError Instr :=
  if rsvField w ≠ 0#56 then .error .reservedBitsSet
  else
    match opcodeMap.find? (fun r => r.opc == opcField w) with
    | some r => .ok r.instr
    | none => .error (.unassignedOpcode (opcField w))

/-- The opcode of a command (R92). -/
def Instr.opcode : Instr → BitVec 8
  | .mix => 0x01#8
  | .unmix => 0x02#8
  | .classify => 0x03#8
  | .codecNew => 0x10#8
  | .codecEncode => 0x11#8
  | .codecDecode => 0x12#8
  | .encode => 0x20#8
  | .decode => 0x21#8

/-- The command word of a command: `CMD = zext_64(OPC)` (R92). -/
def encode (i : Instr) : Word := i.opcode.setWidth 64

/-- Byte k of a 64-bit access carries bits 8k+7..8k (R63). -/
def byteLane (w : Word) (k : Nat) : Byte := w.extractLsb' (8 * k) 8

/-- The eight bytes of a 64-bit access, lowest offset first: little-endian (R63). -/
def bytesOfWord (w : Word) : List Byte :=
  [byteLane w 0, byteLane w 1, byteLane w 2, byteLane w 3, byteLane w 4, byteLane w 5, byteLane w 6, byteLane w 7]

/-- The 64-bit value whose bytes, lowest offset first, are given (R63). -/
def wordOfBytes (b0 b1 b2 b3 b4 b5 b6 b7 : Byte) : Word :=
  (b7 ++ b6 ++ b5 ++ b4 ++ b3 ++ b2 ++ b1 ++ b0 : BitVec (8 + 8 + 8 + 8 + 8 + 8 + 8 + 8))

/-- Decode the command word at the head of a list of bytes, and give the rest of the list. Every command is
exactly one command word (R90). -/
def decodeBytes : List Byte → Except DecodeError (Instr × List Byte)
  | b0 :: b1 :: b2 :: b3 :: b4 :: b5 :: b6 :: b7 :: rest =>
    match decode (wordOfBytes b0 b1 b2 b3 b4 b5 b6 b7) with
    | .ok i => .ok (i, rest)
    | .error e => .error e
  | _ => .error .truncated

/-- The word whose low `nbits` bits are those of `w`, every bit above them 0. -/
def tableWord (nbits w : Nat) : Word := BitVec.ofNat 64 (w % 2 ^ nbits)

/-- The command the decoder reads from a word numbered as spec/opcode_table.json numbers it: the word is laid out
in its byte order and given to the decoder. No command is longer than 64 bits (R90). -/
def decodeTableWord (nbits w : Nat) : Option Instr :=
  if w % 2 ^ nbits < 2 ^ 64 then
    match decodeBytes (bytesOfWord (tableWord nbits w)) with
    | .ok (i, _) => some i
    | .error _ => none
  else none

end Sys2Proof
end

