-- ==== Sys2Proof/Config.lean ====
section
/-! DEFINITION. What an implementation fixes (00_scope.md R5, R6) and the free values the spec leaves open
(93_implementation_defined.md U1, U2, U3). A free value is an opaque constant: no proof can see it, so a
theorem that mentions one holds whatever it is. -/
namespace Sys2Proof

/-- ALPHA_MAX at the spec's reference value (R5); log entry 1. -/
def Config.alphaMax : Nat := 256

/-- STR_MAX at the spec's reference value (R5); log entry 1. -/
def Config.strMax : Nat := 128

/-- CHAR_W, fixed at 32 (R5). -/
def Config.charW : Nat := 32

/-- MAX_U16 (R6). -/
def Config.maxU16 : Word := 0xFFFF#64

/-- MAX_U32 (R6). -/
def Config.maxU32 : Word := 0xFFFFFFFF#64

/-- MAX_U56, the largest id (R6). -/
def Config.maxU56 : Word := 0x00FFFFFFFFFFFFFF#64

/-- MAX_U64 (R6), as the exact number a decoded string is compared with (R165). -/
def Config.maxU64 : Nat := 0xFFFFFFFFFFFFFFFF

/-- The boundary bit that `mix` sets for a Medium id, 2^16 (R6). -/
def Config.boundary16 : Word := 0x10000#64

/-- The boundary bit that `mix` sets for a Large id, 2^32 (R6). -/
def Config.boundary32 : Word := 0x100000000#64

/-- FREE VALUE (R13, R122, U1): the Entropy source's answer to the draw numbered `n`. Log entry 2. -/
opaque Config.entropyDraw (n : Nat) : BitVec 5

/-- FREE VALUE (R41, R260, U2): what ALPHA_STAGE[i] holds after the Reset event numbered `n`. Log entry 3. -/
opaque Config.resetAlphaStage (n i : Nat) : CharCode

/-- FREE VALUE (R42, R260, U3): what CODEC_TAB[i] holds after the Reset event numbered `n`. Log entry 3. -/
opaque Config.resetCodecTab (n i : Nat) : CharCode

/-- FREE VALUE (R43, R260, U2): what STR[i] holds after the Reset event numbered `n`. Log entry 3. -/
opaque Config.resetStr (n i : Nat) : CharCode

/-- FREE VALUE (R42, U3): what CODEC_TAB[i] holds, for i at or above the new length, after the successful
CODEC_NEW numbered `n`. Log entry 4. -/
opaque Config.staleCodecTab (n i : Nat) : CharCode

/-- FREE VALUE: what a host program reads in its variable `x` before it has given it a value (R96 states none).
Log entry 9. -/
opaque Config.unsetHostVar (x : Nat) : Word

end Sys2Proof
end

