-- ==== Sys2Proof/Machine/State.lean ====
section
/-! DEFINITION. The state of the model as plain data: the block's architectural state (10_state.md R20), the Host
agent's program and variables (00_scope.md R7, 30_encoding.md R96), and whose turn it is (20_memory.md R72). -/
namespace Sys2Proof.Machine

/-- Why the machine stops with a fault. The spec names none: "No item of this block is a `fault` or `stuck`"
(93_implementation_defined.md). The type has no constructor, so no step answers a fault. -/
inductive Fault where
  deriving DecidableEq, Repr

/-- Why the machine has no step. -/
inductive Refusal where
  /-- Raised by exec's arm of a command that has no meaning yet. Safe: the machine stops where the hardware goes on. -/
  | notModelled (mnemonic : String)
  /-- Raised by a host access that is not 8 bytes wide or not at a multiple of 8: "A model refuses it: the Host has
  no such step" (20_memory.md R62, U8). Safe: no claim can rest on what a real bus does with it. -/
  | accessOutsideInterface (off : Offset) (width : Nat)
  deriving DecidableEq, Repr

/-- The agents that take steps (R7). The Entropy source takes none of its own: it answers a draw inside a Complete
step (R13). -/
inductive Agent where
  /-- The Host: one operation of its program. -/
  | host
  /-- The Engine: Complete, enabled while BUSY = 1. -/
  | engine
  /-- The external Reset event. -/
  | reset
  deriving DecidableEq, Repr

/-- A value a host program can write down (R96). Which forms may stand where is checked in WellFormed.lean. -/
inductive HostExpr where
  /-- A numeric literal. -/
  | lit (v : Word)
  /-- A character literal, standing for its 32-bit code. -/
  | char (c : CharCode)
  /-- A host variable. -/
  | var (x : Nat)
  /-- `x[hi:lo]`, the bit notation of R9. -/
  | bits (x hi lo : Nat)
  /-- 64-bit unsigned addition. -/
  | add (a b : HostExpr)
  /-- 64-bit unsigned subtraction. -/
  | sub (a b : HostExpr)
  deriving DecidableEq, Repr

/-- The comparisons of a host branch (R96). -/
inductive HostCmp where
  | eq
  | ne
  | lt
  deriving DecidableEq, Repr

/-- One line of a host program (R96). A label is a host program position. An access carries its width, so that one
outside the interface (R62) can be written and is refused. -/
inductive HostStmt where
  /-- `wr NAME, value`: HostWrite(off, value). -/
  | wr (off : Offset) (width : Nat) (value : HostExpr)
  /-- `rd NAME -> x`: x <- HostRead(off). -/
  | rd (off : Offset) (width : Nat) (x : Nat)
  /-- `if a cmp b goto target`. -/
  | branch (cmp : HostCmp) (a b : HostExpr) (target : Nat)
  /-- `goto target`. -/
  | jump (target : Nat)
  /-- `set x, value`. -/
  | assign (x : Nat) (value : HostExpr)
  deriving DecidableEq, Repr

/-- The Host agent: its program, its position in it, and its variables, keys strictly rising. None of it is IDMIX
state (R96). -/
structure HostSide where
  prog : List HostStmt
  pos : Nat
  vars : List (Nat × Word)
  deriving DecidableEq, Repr

/-- A table or buffer of character codes: (index, code) pairs, indexes strictly rising, no code 0; an index that is
not listed reads 0 (log entry 5). -/
abbrev Table := List (Nat × CharCode)

/-- The whole state. The first part is the tuple of R20, each field at the width R20 gives it; PARAMS is a constant
and no state. The last three fields are the model's own. -/
@[ext]
structure State where
  /-- CMD (R23). -/
  cmd : Word
  /-- STATUS.BUSY (R25). -/
  busy : Bool
  /-- STATUS.CODEC_VALID (R26). -/
  codecValid : Bool
  /-- STATUS.LOST (R27). -/
  lost : Bool
  /-- STATUS.ERR_CODE (R28). -/
  errCode : BitVec 8
  /-- CTRL.RAND_MODE (R29). -/
  randMode : Bool
  /-- CTRL.TRACE_EN (R29). -/
  traceEn : Bool
  /-- KEY (R31). -/
  key : Word
  /-- OPA (R32). -/
  opa : Word
  /-- RESULT (R33). -/
  result : Word
  /-- ERR_INFO0 (R34). -/
  errInfo0 : Word
  /-- ERR_INFO1 (R34). -/
  errInfo1 : Word
  /-- RAND_OVR (R35). -/
  randOvr : BitVec 5
  /-- ALPHA_STAGE_LEN (R36). -/
  alphaStageLen : Word
  /-- CODEC_LEN (R37). -/
  codecLen : Word
  /-- STR_LEN (R38). -/
  strLen : Word
  /-- TRACE_CLASS (R39). -/
  traceClass : BitVec 2
  /-- TRACE_S1 (R40). -/
  traceS1 : Word
  /-- TRACE_S2 (R40). -/
  traceS2 : Word
  /-- TRACE_FINAL (R40). -/
  traceFinal : Word
  /-- ALPHA_STAGE[0..ALPHA_MAX-1] (R41). -/
  alphaStage : Table
  /-- CODEC_TAB[0..ALPHA_MAX-1] (R42). -/
  codecTab : Table
  /-- STR[0..STR_MAX-1] (R43). -/
  str : Table
  /-- The model's own: how many free values have been taken; each one is numbered by it (log entry 2). -/
  freeCount : Nat
  /-- The model's own: the Host agent (log entry 8). -/
  host : HostSide
  /-- The model's own: the order in which the agents take their next turns (log entry 6). -/
  turns : List Agent
  deriving DecidableEq, Repr

/-- The machine right after reset (R45, R261): every register 0, the block idle, no codec. The spec leaves the
tables' contents open; the model lists nothing in them (log entry 5). No host program is loaded (log entry 10). -/
def State.reset : State where
  cmd := 0#64
  busy := false
  codecValid := false
  lost := false
  errCode := 0#8
  randMode := false
  traceEn := false
  key := 0#64
  opa := 0#64
  result := 0#64
  errInfo0 := 0#64
  errInfo1 := 0#64
  randOvr := 0#5
  alphaStageLen := 0#64
  codecLen := 0#64
  strLen := 0#64
  traceClass := 0#2
  traceS1 := 0#64
  traceS2 := 0#64
  traceFinal := 0#64
  alphaStage := []
  codecTab := []
  str := []
  freeCount := 0
  host := ⟨[], 0, []⟩
  turns := []

end Sys2Proof.Machine
end

