-- ==== Sys2Proof/Machine/Completion.lean ====
section
/-! DEFINITION. How a command ends: the completion codes (60_exceptions.md R221) and their payloads (R223). -/
namespace Sys2Proof.Machine

/-- A completion with the values it reports (R221, R223). -/
inductive Completion where
  | ok
  /-- The id above MAX_U56. -/
  | domain (id : Word)
  /-- The index of the first repeat and the repeated character. -/
  | duplicateChar (j : Nat) (c : CharCode)
  /-- ALPHA_STAGE_LEN. -/
  | alphabetTooShort (n : Word)
  /-- The index of the first character not in the alphabet, and that character. -/
  | invalidChar (i : Nat) (c : CharCode)
  /-- The exact value of the string. -/
  | overflow (e : Nat)
  /-- The mixed value given to unmix. -/
  | checksumRandsalt (m : Word)
  /-- The mixed value given to unmix. -/
  | checksumKey (m : Word)
  /-- The whole command word. -/
  | illegalCmd (w : Word)
  | noCodec
  /-- ALPHA_STAGE_LEN. -/
  | alphabetTooLong (n : Word)
  /-- STR_LEN. -/
  | stringTooLong (n : Word)
  deriving DecidableEq, Repr

/-- The code recorded in STATUS.ERR_CODE (R221). -/
def Completion.code : Completion → BitVec 8
  | .ok => 0x00#8
  | .domain _ => 0x01#8
  | .duplicateChar _ _ => 0x02#8
  | .alphabetTooShort _ => 0x03#8
  | .invalidChar _ _ => 0x04#8
  | .overflow _ => 0x05#8
  | .checksumRandsalt _ => 0x06#8
  | .checksumKey _ => 0x07#8
  | .illegalCmd _ => 0x10#8
  | .noCodec => 0x11#8
  | .alphabetTooLong _ => 0x12#8
  | .stringTooLong _ => 0x13#8

/-- The payload recorded in ERR_INFO0 (R223). -/
def Completion.info0 : Completion → Word
  | .ok => 0#64
  | .domain id => id
  | .duplicateChar j _ => BitVec.ofNat 64 j
  | .alphabetTooShort n => n
  | .invalidChar i _ => BitVec.ofNat 64 i
  | .overflow e => BitVec.ofNat 64 e
  | .checksumRandsalt m => m
  | .checksumKey m => m
  | .illegalCmd w => w
  | .noCodec => 0#64
  | .alphabetTooLong n => n
  | .stringTooLong n => n

/-- The payload recorded in ERR_INFO1 (R223). -/
def Completion.info1 : Completion → Word
  | .ok => 0#64
  | .domain _ => Config.maxU56
  | .duplicateChar _ c => c.setWidth 64
  | .alphabetTooShort _ => 2#64
  | .invalidChar _ c => c.setWidth 64
  | .overflow e => BitVec.ofNat 64 (e / 2 ^ 64)
  | .checksumRandsalt _ => 0#64
  | .checksumKey _ => 0#64
  | .illegalCmd _ => 0#64
  | .noCodec => 0#64
  | .alphabetTooLong _ => BitVec.ofNat 64 Config.alphaMax
  | .stringTooLong _ => BitVec.ofNat 64 Config.strMax

end Sys2Proof.Machine
end

