-- ==== Sys2Proof/Machine/Ops.lean ====
section
/-! DEFINITION. The named operations over tables and registers, the completion of a command, which is this block's
counterpart of taking an exception (60_exceptions.md R227), and the Reset event (70_reset_and_hazards.md R260). -/
namespace Sys2Proof.Machine

/-! ### Keyed cells: the tables and the host variables -/

/-- The value listed under a key. -/
def cellAt {α : Type} (k : Nat) : List (Nat × α) → Option α
  | [] => none
  | c :: rest => if c.1 = k then some c.2 else cellAt k rest

/-- The cells without those under a key. -/
def dropCell {α : Type} (k : Nat) (cells : List (Nat × α)) : List (Nat × α) :=
  cells.filter (fun c => c.1 != k)

/-- Put a cell before the first one with a larger key. -/
def insertCell {α : Type} (k : Nat) (v : α) : List (Nat × α) → List (Nat × α)
  | [] => [(k, v)]
  | c :: rest => if k < c.1 then (k, v) :: c :: rest else c :: insertCell k v rest

/-- List a value under a key, in place of what was listed there. -/
def putCell {α : Type} (k : Nat) (v : α) (cells : List (Nat × α)) : List (Nat × α) :=
  insertCell k v (dropCell k cells)

/-- Keys strictly rising. -/
def cellsRising {α : Type} : List (Nat × α) → Bool
  | [] => true
  | c :: rest => rest.all (fun d => c.1 < d.1) && cellsRising rest

/-! ### Tables of character codes -/

/-- Entry i of a table: 0 where nothing is listed. -/
def Table.read (t : Table) (i : Nat) : CharCode := (cellAt i t).getD 0#32

/-- `T[i] <- v`, keeping the canonical form: writing what an unlisted entry reads as removes the entry. -/
def Table.write (t : Table) (i : Nat) (v : CharCode) : Table :=
  if v = 0#32 then dropCell i t else putCell i v t

/-- The canonical form of a table of `size` entries: indexes strictly rising and below the size, no code 0. -/
def Table.wf (size : Nat) (t : Table) : Bool :=
  cellsRising t && t.all (fun c => c.1 < size && c.2 != 0#32)

/-- Entries 0..n-1 in order. -/
def Table.entries (t : Table) (n : Nat) : List CharCode := (List.range n).map t.read

/-- Write the codes of a list to entries i, i+1, ... -/
def Table.writeFrom (t : Table) (i : Nat) : List CharCode → Table
  | [] => t
  | c :: cs => Table.writeFrom (t.write i c) (i + 1) cs

/-- The table whose entries lo..lo+n-1 are given by a function, all others 0. -/
def Table.tabulate (f : Nat → CharCode) (lo : Nat) : Nat → Table
  | 0 => []
  | n + 1 =>
    if f lo = 0#32 then Table.tabulate f (lo + 1) n
    else (lo, f lo) :: Table.tabulate f (lo + 1) n

/-! ### Completion -/

/-- `Finish(code, i0, i1)`: the completion record, and nothing else (R222). -/
def State.finish (s : State) (c : Completion) : State :=
  { s with errCode := c.code, errInfo0 := c.info0, errInfo1 := c.info1 }

/-- `KEY <- 0` after a keyed command (R93, R98). -/
def State.zeroKey (s : State) (keyed : Bool) : State :=
  { s with key := if keyed then 0#64 else s.key }

/-- `STATUS.BUSY <- 0` (R93). -/
def State.endCommand (s : State) : State := { s with busy := false }

/-- The end of a Complete step: Finish, then KEY is zeroed if the command is keyed, then BUSY is cleared (R93).
There is no trap entry and no return: nothing is saved and no mode changes (R227, R228). -/
def State.complete (s : State) (keyed : Bool) (c : Completion) : State :=
  ((s.finish c).zeroKey keyed).endCommand

/-- What a command's pseudocode leaves: the state it wrote, and how it ended (R12, R93). -/
abbrev CommandEnd := State × Completion

/-- The Complete step of a command whose pseudocode left `r` (R93). -/
def completeWith (keyed : Bool) (r : CommandEnd) : Host.Outcome State Fault Refusal :=
  .next (r.1.complete keyed r.2)

/-! ### Reset -/

/-- The Reset event (R260): every piece of block state takes its value of R45; each table entry takes a free value.
The Host agent and the order of turns are no state of the block. -/
def State.resetEvent (s : State) : State :=
  { State.reset with
    alphaStage := Table.tabulate (Config.resetAlphaStage s.freeCount) 0 Config.alphaMax
    codecTab := Table.tabulate (Config.resetCodecTab s.freeCount) 0 Config.alphaMax
    str := Table.tabulate (Config.resetStr s.freeCount) 0 Config.strMax
    freeCount := s.freeCount + 1
    host := s.host
    turns := s.turns }

end Sys2Proof.Machine
end

