-- ==== Sys2Proof/Machine/Operands.lean ====
section
/-! DEFINITION. The operands of the commands: each is a fixed register, table or draw (30_encoding.md R91). -/
namespace Sys2Proof.Machine

/-- The candidate alphabet ALPHA_STAGE[0..ALPHA_STAGE_LEN-1] (R91, R161). -/
def State.candidate (s : State) : List CharCode := s.alphaStage.entries s.alphaStageLen.toNat

/-- The committed alphabet CODEC_TAB[0..CODEC_LEN-1] (R91, R160). -/
def State.alphabet (s : State) : List CharCode := s.codecTab.entries s.codecLen.toNat

/-- The string operand STR[0..STR_LEN-1] (R91, R165). -/
def State.string (s : State) : List CharCode := s.str.entries s.strLen.toNat

/-- `RandDraw()`: RAND_OVR with RAND_MODE = 1, else what the Entropy source answers, a free value (R13, R122). -/
def State.randDraw (s : State) : BitVec 5 :=
  if s.randMode then s.randOvr else Config.entropyDraw s.freeCount

/-- The state after the draw: an answer of the Entropy source has been taken with RAND_MODE = 0, none otherwise. -/
def State.afterDraw (s : State) : State :=
  { s with freeCount := if s.randMode then s.freeCount else s.freeCount + 1 }

end Sys2Proof.Machine
end

