-- ==== Sys2Proof/Machine/Codec.lean ====
section
/-! DEFINITION. The AlphabetCodec, CODEC_NEW, CODEC_ENCODE and CODEC_DECODE (42_codec.md R160-R166). An alphabet is
the list of its characters: digit value i is the character at index i (R160). -/
namespace Sys2Proof.Machine

/-! ### Construction -/

/-- The smallest index whose character occurs at an earlier index, with that character; `seen` holds the characters
before index j (R161). -/
def firstRepeat (seen : List CharCode) (j : Nat) : List CharCode → Option (Nat × CharCode)
  | [] => none
  | c :: rest => if c ∈ seen then some (j, c) else firstRepeat (c :: seen) (j + 1) rest

/-- `CODEC_TAB[i] <- ALPHA_STAGE[i]` for i below the new length; the entries at and above it hold unspecified values
(R161, R42). -/
def State.commitCodec (s : State) : State :=
  { s with
    codecTab := Table.tabulate
      (fun i => if i < s.alphaStageLen.toNat then s.alphaStage.read i else Config.staleCodecTab s.freeCount i)
      0 Config.alphaMax
    codecLen := s.alphaStageLen
    codecValid := true
    freeCount := s.freeCount + 1 }

/-- The pseudocode of CODEC_NEW: the three checks in the order of R161, then the commit. -/
def codecNewCommand (s : State) : CommandEnd :=
  if Config.alphaMax < s.alphaStageLen.toNat then (s, .alphabetTooLong s.alphaStageLen)
  else
    match firstRepeat [] 0 s.candidate with
    | some (j, c) => (s, .duplicateChar j c)
    | none =>
      if s.alphaStageLen.toNat < 2 then (s, .alphabetTooShort s.alphaStageLen)
      else (s.commitCodec, .ok)

/-- CODEC_NEW, OPC 0x10 (R161). -/
def execCodecNew (s : State) : Host.Outcome State Fault Refusal :=
  completeWith false (codecNewCommand s)

/-! ### Encoding a value -/

/-- The character of a digit value (R160). The digits of a value are below N, so the 0 beside it is never taken with
a committed codec (log entry 12). -/
def charOf (alpha : List CharCode) (d : Nat) : CharCode := alpha[d]?.getD 0#32

/-- The loop of R163 on digit values: prepend `v mod n`, go on with `v div n`, until v is 0. At most `fuel` rounds;
64 are enough for a 64-bit value and n ≥ 2 (R163; log entry 12). -/
def digitsLoop (n : Nat) : Nat → Nat → List Nat → List Nat
  | 0, _, ds => ds
  | fuel + 1, v, ds => if v = 0 then ds else digitsLoop n fuel (v / n) (v % n :: ds)

/-- `encodeDigits(v)` (R163): the value 0 is the alphabet's first character alone. -/
def encodeDigits (alpha : List CharCode) (v : Word) : List CharCode :=
  if v = 0#64 then [charOf alpha 0]
  else (digitsLoop alpha.length 64 v.toNat []).map (charOf alpha)

/-- `STR[i] <- ds[i]` for each i, and `STR_LEN <- length(ds)` (R164). -/
def State.writeString (s : State) (ds : List CharCode) : State :=
  { s with str := s.str.writeFrom 0 ds, strLen := BitVec.ofNat 64 ds.length }

/-- The pseudocode of CODEC_ENCODE (R164). -/
def codecEncodeCommand (s : State) : CommandEnd :=
  if s.codecValid then (s.writeString (encodeDigits s.alphabet s.opa), .ok)
  else (s, .noCodec)

/-- CODEC_ENCODE, OPC 0x11 (R164). -/
def execCodecEncode (s : State) : Host.Outcome State Fault Refusal :=
  completeWith false (codecEncodeCommand s)

/-! ### Decoding a string -/

/-- `digitOf(ch)`: the index of a character in the alphabet, or none (R162). -/
def digitOf (alpha : List CharCode) (ch : CharCode) : Option Nat := alpha.findIdx? (fun a => a == ch)

/-- The loop of R165 from index i on, `e` being the exact value so far: an invalid character anywhere is reported. -/
def decodeLoop (alpha : List CharCode) (i e : Nat) : List CharCode → Except Completion Nat
  | [] => .ok e
  | ch :: rest =>
    match digitOf alpha ch with
    | none => .error (.invalidChar i ch)
    | some d => decodeLoop alpha (i + 1) (e * alpha.length + d) rest

/-- The value of a string: the overflow test is on the exact value (R165). -/
def decodeString (alpha str : List CharCode) : Except Completion Word :=
  match decodeLoop alpha 0 0 str with
  | .error e => .error e
  | .ok e => if Config.maxU64 < e then .error (.overflow e) else .ok (BitVec.ofNat 64 e)

/-- One digit of the hardware realisation of R165: a 128-bit accumulator that wraps, with a sticky flag set on the
first step at which the value exceeds MAX_U64. -/
def accumulate128 (n d : Nat) (a : BitVec 128 × Bool) : BitVec 128 × Bool :=
  let acc := a.1 * BitVec.ofNat 128 n + BitVec.ofNat 128 d
  (acc, a.2 || decide (Config.maxU64 < acc.toNat))

/-- The loop of the hardware realisation of R165. -/
def decodeLoop128 (alpha : List CharCode) (i : Nat) (a : BitVec 128 × Bool) :
    List CharCode → Except Completion (BitVec 128 × Bool)
  | [] => .ok a
  | ch :: rest =>
    match digitOf alpha ch with
    | none => .error (.invalidChar i ch)
    | some d => decodeLoop128 alpha (i + 1) (accumulate128 alpha.length d a) rest

/-- The hardware realisation of R165: what it reports on an overflow are the two halves of its accumulator. No
command uses it; R165 says it "gives the same results" as the exact value. -/
def decodeString128 (alpha str : List CharCode) : Except Completion Word :=
  match decodeLoop128 alpha 0 (0#128, false) str with
  | .error e => .error e
  | .ok (acc, true) => .error (.overflow acc.toNat)
  | .ok (acc, false) => .ok (acc.setWidth 64)

/-- `decodeValue()` (R165): the length check comes first. -/
def State.decodeValue (s : State) : Except Completion Word :=
  if Config.strMax < s.strLen.toNat then .error (.stringTooLong s.strLen)
  else decodeString s.alphabet s.string

/-- The codec stage of CODEC_DECODE and DECODE: NO_CODEC before every other check (R166, R201). -/
def State.decodeStage (s : State) : Except Completion Word :=
  if s.codecValid then s.decodeValue else .error .noCodec

/-- The pseudocode of CODEC_DECODE (R166). -/
def codecDecodeCommand (s : State) : CommandEnd :=
  match s.decodeStage with
  | .ok v => ({ s with result := v }, .ok)
  | .error e => (s, e)

/-- CODEC_DECODE, OPC 0x12 (R166). -/
def execCodecDecode (s : State) : Host.Outcome State Fault Refusal :=
  completeWith false (codecDecodeCommand s)

end Sys2Proof.Machine
end

