-- ==== Sys2Proof/Machine/Flags.lean ====
section
/-! DEFINITION. Flag computations: parity (41_mixer.md R120), the control byte and the fields of a MixedValue (R121),
and the packed STATUS, CTRL and PARAMS words (10_state.md R24, R29, R30). -/
namespace Sys2Proof.Machine

/-- The number of 1 bits (R9). -/
def popcount (v : Word) : Nat := (List.range 64).countP (fun i => v.getLsbD i)

/-- `popcount(x) mod 2` (R120). -/
def parity (v : Word) : Bool := popcount v % 2 == 1

/-- The ControlByte: rand(5), paddingFlag, keyParity, saltParity, from the high bits down (R121). -/
def controlByte (rand : BitVec 5) (pad keyParity saltParity : Bool) : BitVec 8 :=
  rand ++ BitVec.ofBool pad ++ BitVec.ofBool keyParity ++ BitVec.ofBool saltParity

/-- The MixedValue `(scrambled2 << 8) | controlByte` (R121). -/
def mixedValue (s2 : Word) (cb : BitVec 8) : Word := (s2 <<< 8) ||| cb.setWidth 64

/-- Bits 63:8 of a MixedValue, as a word (R121). -/
def mixedScrambled (m : Word) : Word := m >>> 8

/-- Bits 7:3 of a MixedValue (R121). -/
def mixedRand (m : Word) : BitVec 5 := m.extractLsb' 3 5

/-- Bit 2 of a MixedValue (R121). -/
def mixedPad (m : Word) : Bool := m.getLsbD 2

/-- Bit 1 of a MixedValue (R121). -/
def mixedKeyParity (m : Word) : Bool := m.getLsbD 1

/-- Bit 0 of a MixedValue (R121). -/
def mixedSaltParity (m : Word) : Bool := m.getLsbD 0

/-- STATUS as the Host reads it: reserved fields read 0 (R24). -/
def State.statusWord (s : State) : Word :=
  (0#48 ++ s.errCode ++ 0#5 ++ BitVec.ofBool s.lost ++ BitVec.ofBool s.codecValid ++ BitVec.ofBool s.busy
    : BitVec (48 + 8 + 5 + 1 + 1 + 1))

/-- CTRL as the Host reads it (R29). -/
def State.ctrlWord (s : State) : Word :=
  (0#62 ++ BitVec.ofBool s.traceEn ++ BitVec.ofBool s.randMode : BitVec (62 + 1 + 1))

/-- The constant PARAMS (R30). -/
def paramsWord : Word :=
  (0#24 ++ BitVec.ofNat 8 Config.charW ++ BitVec.ofNat 16 Config.strMax ++ BitVec.ofNat 16 Config.alphaMax
    : BitVec (24 + 8 + 16 + 16))

end Sys2Proof.Machine
end

