-- ==== Sys2Proof/Machine/SizeClass.lean ====
section
/-! DEFINITION. The SizeClassifier and the CLASSIFY command (40_sizeclass.md R110-R115). -/
namespace Sys2Proof.Machine

/-- The three size classes (R111). -/
inductive SizeClass where
  | small
  | medium
  | large
  deriving DecidableEq, Repr

/-- `classify(v)`: a comparison with MAX_U16 and MAX_U32; every value above MAX_U32 is Large (R110). -/
def classify (v : Word) : SizeClass :=
  if v ≤ Config.maxU16 then .small
  else if v ≤ Config.maxU32 then .medium
  else .large

/-- The 2-bit class code (R111). -/
def SizeClass.code : SizeClass → BitVec 2
  | .small => 0#2
  | .medium => 1#2
  | .large => 2#2

/-- `maskWidth(c)` (R112). -/
def SizeClass.maskWidth : SizeClass → Nat
  | .small => 16
  | .medium => 32
  | .large => 56

/-- `saltShift(c)` (R113). -/
def SizeClass.saltShift : SizeClass → Nat
  | .small => 8
  | .medium => 16
  | .large => 32

/-- `mask(c) = 2^maskWidth(c) - 1` (R114). -/
def SizeClass.mask (c : SizeClass) : Word := BitVec.ofNat 64 (2 ^ c.maskWidth - 1)

/-- The word CLASSIFY reports: `{saltShift(c)[7:0], maskWidth(c)[7:0], 6'b0, code(c)[1:0]}` (R115). -/
def SizeClass.report (c : SizeClass) : Word :=
  (BitVec.ofNat 8 c.saltShift ++ BitVec.ofNat 8 c.maskWidth ++ 0#6 ++ c.code).setWidth 64

/-- The pseudocode of CLASSIFY (R115). -/
def classifyCommand (s : State) : CommandEnd :=
  ({ s with result := (classify s.opa).report }, .ok)

/-- CLASSIFY, OPC 0x03 (R115). -/
def execClassify (s : State) : Host.Outcome State Fault Refusal :=
  completeWith false (classifyCommand s)

end Sys2Proof.Machine
end

