-- ==== Sys2Proof/Machine/Mixer.lean ====
section
/-! DEFINITION. The Mixer, MIX and UNMIX (41_mixer.md R123-R130). -/
namespace Sys2Proof.Machine

/-! ### mix -/

/-- The values of `mixCore` that its trace points and its result show (R123). -/
structure MixStages where
  /-- The size class of the id, step 3. -/
  cls : SizeClass
  /-- scrambled1, step 4. -/
  s1 : Word
  /-- scrambled2 after step 6. -/
  s2 : Word
  /-- paddingFlag, step 6. -/
  pad : Bool
  /-- The MixedValue, step 8. -/
  mixed : Word
  deriving DecidableEq, Repr

/-- `maskedKey`, step 3 (R123, R114). -/
def maskedKey (key : Word) (c : SizeClass) : Word := key &&& c.mask

/-- `salt`, step 3: `(zext_64(rand) << saltShift(c)) XOR maskedKey` (R123). -/
def salt (key : Word) (c : SizeClass) (rand : BitVec 5) : Word :=
  (rand.setWidth 64 <<< c.saltShift) ^^^ maskedKey key c

/-- paddingFlag, step 6: scrambled2 looks like a smaller class than the id's (R124). -/
def needsPad (c : SizeClass) (s2 : Word) : Bool :=
  match c with
  | .small => false
  | .medium => s2 ≤ Config.maxU16
  | .large => s2 ≤ Config.maxU32

/-- The boundary bit of a class, step 6; a Small id never pads (R124). -/
def boundaryBit : SizeClass → Word
  | .small => 0#64
  | .medium => Config.boundary16
  | .large => Config.boundary32

/-- `mixCore` on an id in the domain, with the nonce drawn (R123, steps 3 to 8). saltParity is taken before the
boundary bit is set. -/
def mixCore (key id : Word) (rand : BitVec 5) : MixStages :=
  let c := classify id
  let s1 := maskedKey key c ^^^ id
  let s2 := s1 ^^^ salt key c rand
  let pad := needsPad c s2
  let s2' := if pad then s2 ||| boundaryBit c else s2
  { cls := c
    s1 := s1
    s2 := s2'
    pad := pad
    mixed := mixedValue s2' (controlByte rand pad (parity s1) (parity s2)) }

/-- The mix trace points (R126): nothing is written with TRACE_EN = 0. -/
def State.traceMix (s : State) (m : MixStages) : State :=
  if s.traceEn then
    { s with traceClass := m.cls.code, traceS1 := m.s1, traceS2 := m.s2, traceFinal := m.mixed }
  else s

/-- The mix stage of MIX and ENCODE on KEY and OPA: the domain check comes first, and a rejected id draws no rand
and writes no trace register (R123, R126). -/
def mixStage (s : State) : State × Except Completion Word :=
  if Config.maxU56 < s.opa then (s, .error (.domain s.opa))
  else
    let m := mixCore s.key s.opa s.randDraw
    (s.afterDraw.traceMix m, .ok m.mixed)

/-- The pseudocode of MIX (R125). -/
def mixCommand (s : State) : CommandEnd :=
  match mixStage s with
  | (t, .ok m) => ({ t with result := m }, .ok)
  | (t, .error e) => (t, e)

/-- MIX, OPC 0x01 (R125). -/
def execMix (s : State) : Host.Outcome State Fault Refusal :=
  completeWith true (mixCommand s)

/-! ### unmix -/

/-- Step 2 of unmix: with paddingFlag = 1 the received value is masked to the range of the next smaller class; a
Small-shaped value is used unchanged (R128). -/
def unpad (c : SizeClass) (pad : Bool) (r2 : Word) : Word :=
  if pad then
    match c with
    | .small => r2
    | .medium => r2 &&& Config.maxU16
    | .large => r2 &&& Config.maxU32
  else r2

/-- The class of a received MixedValue: that of its bits 63:8, its boundary bit still set (R128). -/
def unmixClass (m : Word) : SizeClass := classify (mixedScrambled m)

/-- The recovered scrambled2 (R127, step 2). -/
def unmixS2 (m : Word) : Word := unpad (unmixClass m) (mixedPad m) (mixedScrambled m)

/-- `unsalted = s2 XOR salt` (R127, step 5). -/
def unmixUnsalted (key m : Word) : Word := unmixS2 m ^^^ salt key (unmixClass m) (mixedRand m)

/-- `id = maskedKey XOR unsalted` (R127, step 6). -/
def unmixId (key m : Word) : Word := maskedKey key (unmixClass m) ^^^ unmixUnsalted key m

/-- The salt check, step 4: the parity of scrambled2 is saltParity (R127). -/
def saltCheck (m : Word) : Bool := parity (unmixS2 m) == mixedSaltParity m

/-- The key check, step 5: the parity of `unsalted` is keyParity (R127). -/
def keyCheck (key m : Word) : Bool := parity (unmixUnsalted key m) == mixedKeyParity m

/-- The first unmix trace point, before the salt check: TRACE_CLASS and TRACE_S1 (R130). -/
def State.traceUnmixEntry (s : State) (m : Word) : State :=
  if s.traceEn then { s with traceClass := (unmixClass m).code, traceS1 := unmixS2 m } else s

/-- The second unmix trace point, after the salt check: TRACE_S2 (R130). -/
def State.traceUnmixUnsalted (s : State) (m : Word) : State :=
  if s.traceEn then { s with traceS2 := unmixUnsalted s.key m } else s

/-- The last unmix trace point, after both checks: TRACE_FINAL (R130). -/
def State.traceUnmixFinal (s : State) (m : Word) : State :=
  if s.traceEn then { s with traceFinal := unmixId s.key m } else s

/-- The unmix stage of UNMIX and DECODE: `unmixCore(KEY, m)`, the salt check before the key check (R127, R130). -/
def unmixStage (s : State) (m : Word) : State × Except Completion Word :=
  let s1 := s.traceUnmixEntry m
  if saltCheck m then
    let s2 := s1.traceUnmixUnsalted m
    if keyCheck s.key m then (s2.traceUnmixFinal m, .ok (unmixId s.key m))
    else (s2, .error (.checksumKey m))
  else (s1, .error (.checksumRandsalt m))

/-- The pseudocode of UNMIX (R129). -/
def unmixCommand (s : State) : CommandEnd :=
  match unmixStage s s.opa with
  | (t, .ok id) => ({ t with result := id }, .ok)
  | (t, .error e) => (t, e)

/-- UNMIX, OPC 0x02 (R129). -/
def execUnmix (s : State) : Host.Outcome State Fault Refusal :=
  completeWith true (unmixCommand s)

end Sys2Proof.Machine
end

