-- ==== Sys2Proof/Machine/Facade.lean ====
section
/-! DEFINITION. The Facade commands ENCODE and DECODE: the first error of either stage is the command's (43_facade.md
R200, R201). -/
namespace Sys2Proof.Machine

/-- The pseudocode of ENCODE: NO_CODEC is checked before the mix stage (R200). -/
def encodeCommand (s : State) : CommandEnd :=
  if s.codecValid then
    match mixStage s with
    | (t, .ok m) => ({ t.writeString (encodeDigits s.alphabet m) with result := m }, .ok)
    | (t, .error e) => (t, e)
  else (s, .noCodec)

/-- ENCODE, OPC 0x20 (R200). -/
def execEncode (s : State) : Host.Outcome State Fault Refusal :=
  completeWith true (encodeCommand s)

/-- The pseudocode of DECODE: errors of the codec stage come before those of the unmix stage (R201). -/
def decodeCommand (s : State) : CommandEnd :=
  match s.decodeStage with
  | .error e => (s, e)
  | .ok v =>
    match unmixStage s v with
    | (t, .ok id) => ({ t with result := id }, .ok)
    | (t, .error e) => (t, e)

/-- DECODE, OPC 0x21 (R201). -/
def execDecode (s : State) : Host.Outcome State Fault Refusal :=
  completeWith true (decodeCommand s)

end Sys2Proof.Machine
end

