-- ==== Sys2Proof/Machine/Dispatch.lean ====
section
/-! DEFINITION. One arm per command: the Complete step of that command (30_encoding.md R93). -/
namespace Sys2Proof.Machine

/-- Run a command's Complete step. -/
def exec (i : Instr) (s : State) : Host.Outcome State Fault Refusal :=
  match i with
  | .mix => Sys2Proof.Machine.execMix s
  | .unmix => Sys2Proof.Machine.execUnmix s
  | .classify => Sys2Proof.Machine.execClassify s
  | .codecNew => Sys2Proof.Machine.execCodecNew s
  | .codecEncode => Sys2Proof.Machine.execCodecEncode s
  | .codecDecode => Sys2Proof.Machine.execCodecDecode s
  | .encode => Sys2Proof.Machine.execEncode s
  | .decode => Sys2Proof.Machine.execDecode s

end Sys2Proof.Machine
end

