-- ==== Sys2Proof/Machine/HostPort.lean ====
section
/-! DEFINITION. The register space and the Host's two access operations (20_memory.md R60-R70). -/
namespace Sys2Proof.Machine

/-- The rows of the register map (R64). -/
inductive Reg where
  | cmd
  | status
  | ctrl
  | params
  | key
  | opa
  | result
  | errInfo0
  | errInfo1
  | randOvr
  | alphaStageLen
  | codecLen
  | strLen
  | traceClass
  | traceS1
  | traceS2
  | traceFinal
  | alphaStage (i : Nat)
  | codecTab (i : Nat)
  | str (i : Nat)
  | unmapped
  deriving DecidableEq, Repr

/-- The entry of a table region at base `base`, where the slot is below the table's size (R64, R65). -/
def slotAt (entry : Nat → Reg) (base size off : Nat) : Reg :=
  if off % 8 = 0 ∧ (off - base) / 8 < size then entry ((off - base) / 8) else .unmapped

/-- The registers below the table regions (R64, R65). -/
def controlRegAt : Nat → Reg
  | 0x0000 => .cmd
  | 0x0008 => .status
  | 0x0010 => .ctrl
  | 0x0018 => .params
  | 0x0020 => .key
  | 0x0028 => .opa
  | 0x0030 => .result
  | 0x0038 => .errInfo0
  | 0x0040 => .errInfo1
  | 0x0048 => .randOvr
  | 0x0050 => .alphaStageLen
  | 0x0058 => .codecLen
  | 0x0060 => .strLen
  | 0x0068 => .traceClass
  | 0x0070 => .traceS1
  | 0x0078 => .traceS2
  | 0x0080 => .traceFinal
  | _ => .unmapped

/-- What the register map has at an offset (R64, R65). DESIGN CHOICE (log entry 16): R62 leaves an access at an offset
that is not a multiple of 8 open, and this total function has such an offset unmapped; hostTurn refuses the access. -/
def regAt (off : Offset) : Reg :=
  let o := off.toNat
  if o < 0x1000 then controlRegAt o
  else if o < 0x2000 then slotAt .alphaStage 0x1000 Config.alphaMax o
  else if o < 0x3000 then slotAt .codecTab 0x2000 Config.alphaMax o
  else if o < 0x4000 then slotAt .str 0x3000 Config.strMax o
  else .unmapped

/-- The offset of a register (R64); an unmapped one has none. -/
def Reg.offset : Reg → Option Nat
  | .cmd => some 0x0000
  | .status => some 0x0008
  | .ctrl => some 0x0010
  | .params => some 0x0018
  | .key => some 0x0020
  | .opa => some 0x0028
  | .result => some 0x0030
  | .errInfo0 => some 0x0038
  | .errInfo1 => some 0x0040
  | .randOvr => some 0x0048
  | .alphaStageLen => some 0x0050
  | .codecLen => some 0x0058
  | .strLen => some 0x0060
  | .traceClass => some 0x0068
  | .traceS1 => some 0x0070
  | .traceS2 => some 0x0078
  | .traceFinal => some 0x0080
  | .alphaStage i => if i < Config.alphaMax then some (0x1000 + 8 * i) else none
  | .codecTab i => if i < Config.alphaMax then some (0x2000 + 8 * i) else none
  | .str i => if i < Config.strMax then some (0x3000 + 8 * i) else none
  | .unmapped => none

/-- What a register reads as: KEY and unmapped offsets read 0, a CODEC_TAB entry at or above CODEC_LEN reads 0, and
the bits a register does not have read 0 (R23-R43, R65). -/
def State.readReg (s : State) : Reg → Word
  | .cmd => s.cmd
  | .status => s.statusWord
  | .ctrl => s.ctrlWord
  | .params => paramsWord
  | .key => 0#64
  | .opa => s.opa
  | .result => s.result
  | .errInfo0 => s.errInfo0
  | .errInfo1 => s.errInfo1
  | .randOvr => s.randOvr.setWidth 64
  | .alphaStageLen => s.alphaStageLen
  | .codecLen => s.codecLen
  | .strLen => s.strLen
  | .traceClass => s.traceClass.setWidth 64
  | .traceS1 => s.traceS1
  | .traceS2 => s.traceS2
  | .traceFinal => s.traceFinal
  | .alphaStage i => (s.alphaStage.read i).setWidth 64
  | .codecTab i => if i < s.codecLen.toNat then (s.codecTab.read i).setWidth 64 else 0#64
  | .str i => (s.str.read i).setWidth 64
  | .unmapped => 0#64

/-- `CMD <- v; STATUS.BUSY <- 1`: a command is issued, its word unchecked (R70). -/
def State.issue (s : State) (v : Word) : State := { s with cmd := v, busy := true }

/-- A write to STATUS: bit 2 = 1 clears LOST, nothing else happens (R69). -/
def State.writeStatus (s : State) (v : Word) : State :=
  { s with lost := s.lost && !v.getLsbD 2 }

/-- A write accepted while BUSY = 0 (R67): read-only and unmapped offsets have no effect. -/
def State.writeReg (s : State) (r : Reg) (v : Word) : State :=
  match r with
  | .cmd => s.issue v
  | .status => s.writeStatus v
  | .ctrl => { s with randMode := v.getLsbD 0, traceEn := v.getLsbD 1 }
  | .key => { s with key := v }
  | .opa => { s with opa := v }
  | .randOvr => { s with randOvr := v.setWidth 5 }
  | .alphaStageLen => { s with alphaStageLen := v }
  | .strLen => { s with strLen := v }
  | .alphaStage i => { s with alphaStage := s.alphaStage.write i (v.setWidth 32) }
  | .str i => { s with str := s.str.write i (v.setWidth 32) }
  | .params | .result | .errInfo0 | .errInfo1 | .codecLen | .traceClass | .traceS1 | .traceS2 | .traceFinal
  | .codecTab _ | .unmapped => s

/-- `HostRead(off)` (R66). It has no effect on the block. At an offset that is not a multiple of 8, which the Host
cannot access (R62), the 0 it gives is the model's choice (DESIGN CHOICE, log entry 16). -/
def State.hostRead (s : State) (off : Offset) : Word := s.readReg (regAt off)

/-- `HostWrite(off, v)`: STATUS is always accepted; any other write made while BUSY = 1 is lost and sets LOST; else the
register is written (R67-R69). At an offset that is not a multiple of 8, which the Host cannot access (R62), what it
does is the model's choice (DESIGN CHOICE, log entry 16). -/
def State.hostWrite (s : State) (off : Offset) (v : Word) : State :=
  if regAt off = .status then s.writeStatus v
  else if s.busy then { s with lost := true }
  else s.writeReg (regAt off) v

/-- An access of the interface: exactly 8 bytes wide, at a multiple of 8 (R62). -/
def accessLegal (off : Offset) (width : Nat) : Bool := width == 8 && off.toNat % 8 == 0

/-- Byte k of the access at an offset (R63). -/
def State.hostReadByte (s : State) (off : Offset) (k : Nat) : Byte := byteLane (s.hostRead off) k

end Sys2Proof.Machine
end

