-- ==== Sys2Proof/Machine/HostProgram.lean ====
section
/-! DEFINITION. The Host agent: what each line of a host program does (30_encoding.md R96), and the pseudo-instructions
(R97). -/
namespace Sys2Proof.Machine

/-- The value of a host variable; a free value before the program has given it one (log entry 9). -/
def HostSide.get (h : HostSide) (x : Nat) : Word := (cellAt x h.vars).getD (Config.unsetHostVar x)

/-- Give a host variable a value. -/
def HostSide.set (h : HostSide) (x : Nat) (v : Word) : HostSide := { h with vars := putCell x v h.vars }

/-- Go on at a program position. -/
def HostSide.goto (h : HostSide) (p : Nat) : HostSide := { h with pos := p }

/-- Go on with the next line. -/
def HostSide.advance (h : HostSide) : HostSide := { h with pos := h.pos + 1 }

/-- The line the Host is at; none when its program has no step left (R79). -/
def HostSide.line (h : HostSide) : Option HostStmt := h.prog[h.pos]?

/-- The value of a host expression: 64-bit unsigned arithmetic on host variables (R96, R9). -/
def HostExpr.eval (h : HostSide) : HostExpr → Word
  | .lit v => v
  | .char c => c.setWidth 64
  | .var x => h.get x
  | .bits x hi lo => ((h.get x).extractLsb' lo (hi + 1 - lo)).setWidth 64
  | .add a b => a.eval h + b.eval h
  | .sub a b => a.eval h - b.eval h

/-- A host comparison; all values are unsigned (R96, R9). -/
def HostCmp.holds : HostCmp → Word → Word → Bool
  | .eq, a, b => a == b
  | .ne, a, b => a != b
  | .lt, a, b => a < b

/-- One turn of the Host: one line of its program. A line that makes an access outside the interface has no step
(R62). A Host whose program has no line left does nothing (R79). -/
def hostTurn (s : State) : Host.Outcome State Fault Refusal :=
  match s.host.line with
  | none => .next s
  | some (.wr off width e) =>
    if accessLegal off width then .next { s.hostWrite off (e.eval s.host) with host := s.host.advance }
    else .refused (.accessOutsideInterface off width)
  | some (.rd off width x) =>
    if accessLegal off width then .next { s with host := (s.host.set x (s.hostRead off)).advance }
    else .refused (.accessOutsideInterface off width)
  | some (.branch cmp a b target) =>
    .next { s with host := if cmp.holds (a.eval s.host) (b.eval s.host) then s.host.goto target else s.host.advance }
  | some (.jump target) => .next { s with host := s.host.goto target }
  | some (.assign x e) => .next { s with host := (s.host.set x (e.eval s.host)).advance }

/-! ### Pseudo-instructions (R97) -/

/-- `wr NAME, value` at a register's offset, in the one width the interface has. -/
def wrReg (off : Offset) (e : HostExpr) : HostStmt := .wr off 8 e

/-- `rd NAME -> x`. -/
def rdReg (off : Offset) (x : Nat) : HostStmt := .rd off 8 x

/-- `cmd M`: `wr CMD, OPC(M)`. -/
def cmdLines (i : Instr) : List HostStmt := [wrReg 0x0000#16 (.lit (encode i))]

/-- `wait`, at program position `p`, through the host variable `x`: read STATUS until bit 0 is not 1. -/
def waitLines (p x : Nat) : List HostStmt :=
  [rdReg 0x0008#16 x, .branch .eq (.bits x 0 0) (.lit 1#64) p]

/-- `run M` at program position `p`: `cmd M` then `wait`. -/
def runLines (p x : Nat) (i : Instr) : List HostStmt := cmdLines i ++ waitLines (p + 1) x

/-- Writes of the characters of a string to a table's slots, from an offset on. -/
def charLines (off : Offset) : List CharCode → List HostStmt
  | [] => []
  | c :: cs => wrReg off (.char c) :: charLines (off + 8#16) cs

/-- `ldalpha "c0 ... c(n-1)"`. -/
def ldalphaLines (cs : List CharCode) : List HostStmt :=
  charLines 0x1000#16 cs ++ [wrReg 0x0050#16 (.lit (BitVec.ofNat 64 cs.length))]

/-- `ldstr "c0 ... c(n-1)"`. -/
def ldstrLines (cs : List CharCode) : List HostStmt :=
  charLines 0x3000#16 cs ++ [wrReg 0x0060#16 (.lit (BitVec.ofNat 64 cs.length))]

/-- `clrlost`: `wr STATUS, 0x4`. -/
def clrlostLines : List HostStmt := [wrReg 0x0008#16 (.lit 4#64)]

end Sys2Proof.Machine
end

