-- ==== Sys2Proof/Machine/Engine.lean ====
section
/-! DEFINITION. The Engine's Complete step (30_encoding.md R93, R94) and the order of the agents' turns
(20_memory.md R72, 70_reset_and_hazards.md R268). -/
namespace Sys2Proof.Machine

/-- The Complete step of the pending command: the word in CMD is decoded; an illegal word completes with ILLEGAL_CMD
and changes nothing else, KEY included (R93, R94). -/
def completeStep (s : State) : Host.Outcome State Fault Refusal :=
  match decode s.cmd with
  | .ok i => exec i s
  | .error _ => completeWith false (s, .illegalCmd s.cmd)

/-- One turn of the Engine: Complete is enabled exactly when BUSY = 1 (R93); otherwise the turn passes. -/
def engineTurn (s : State) : Host.Outcome State Fault Refusal :=
  if s.busy then completeStep s else .next s

/-- Whose turn it is. With no order given, a pending command completes at once, and an idle block leaves the turn to
the Host: Complete is then never put off for ever (R268; log entry 6). -/
def State.agent (s : State) : Agent :=
  match s.turns with
  | a :: _ => a
  | [] => if s.busy then .engine else .host

/-- The state with its first turn taken. -/
def State.popTurn (s : State) : State := { s with turns := s.turns.tail }

/-- One step of one agent (R7, R8). -/
def agentTurn (a : Agent) (s : State) : Host.Outcome State Fault Refusal :=
  match a with
  | .host => hostTurn s
  | .engine => engineTurn s
  | .reset => .next s.resetEvent

/-- The state in which the command word `w` has been issued and its Complete step is next. -/
def placeCommand (s : State) (w : Word) : State := { s with cmd := w, busy := true, turns := [] }

end Sys2Proof.Machine
end

