-- ==== Sys2Proof/Machine/Step.lean ====
section
/-! DEFINITION. One step of the machine: the agent whose turn it is takes one step (00_scope.md R8). -/
namespace Sys2Proof.Machine

/-- One step. All agents' steps form one total order, and each sees the state left by the one before it (R72). -/
def step (s : State) : Host.Outcome State Fault Refusal := agentTurn s.agent s.popTurn

/-- The state with the command word `w` issued and not yet completed, so that the next step is its Complete step. The
block fetches no instructions: this stands for the Host's write to CMD (R70, R75; log entry 10). -/
def State.withFetchWord (s : State) (nbits w : Nat) : State := placeCommand s (tableWord nbits w)

end Sys2Proof.Machine
end

