-- ==== Sys2Proof/WellFormed.lean ====
section
/-! DEFINITION. Well-formed command words (30_encoding.md R90, R92) and well-formed host programs (R96, R62). A command
has no operand field (R91), so each constructor of Instr is well-formed as it stands: the checks on a command are
those on its word. -/
namespace Sys2Proof

/-- A legal command word: RSV is 0 and OPC is one of the eight values of R92. -/
def commandWordWf (w : Word) : Bool :=
  rsvField w == 0#56 && opcodeMap.any (fun r => r.opc == opcField w)

/-- A command is well-formed when its word is legal. -/
def Instr.wf (i : Instr) : Bool := commandWordWf (Sys2Proof.encode i)

namespace Machine

/-- The access names a register or table entry of R64 and is of the interface (R62, R96). -/
def accessWf (off : Offset) (width : Nat) : Bool := accessLegal off width && regAt off != .unmapped

/-- A `value`: a literal, a character literal or a variable (R96). -/
def HostExpr.isValue : HostExpr → Bool
  | .lit _ | .char _ | .var _ => true
  | .bits _ _ _ | .add _ _ | .sub _ _ => false

/-- An operand of a `cond`: a literal or a variable, or bits hi down to lo of one (R96, R9). -/
def HostExpr.isCondOperand : HostExpr → Bool
  | .lit _ | .char _ | .var _ => true
  | .bits _ hi lo => lo ≤ hi && hi < 64
  | .add _ _ | .sub _ _ => false

/-- The expression of a `set`: + and - of literals and variables (R96). -/
def HostExpr.isSetExpr : HostExpr → Bool
  | .lit _ | .char _ | .var _ => true
  | .bits _ _ _ => false
  | .add a b | .sub a b => a.isSetExpr && b.isSetExpr

/-- A well-formed line of a host program of `len` lines; a label may stand at its end (R96). -/
def HostStmt.wf (len : Nat) : HostStmt → Bool
  | .wr off width e => accessWf off width && e.isValue
  | .rd off width _ => accessWf off width
  | .branch _ a b target => a.isCondOperand && b.isCondOperand && target ≤ len
  | .jump target => target ≤ len
  | .assign _ e => e.isSetExpr

/-- A well-formed host program (R96). -/
def hostProgramWf (prog : List HostStmt) : Bool := prog.all (HostStmt.wf prog.length)

end Machine

end Sys2Proof
end

