-- ==== Sys2Proof/Safety.lean ====
section
/-! DEFINITION. What claims speak of: the invariant of the block, the host's duties, and the end of a run
(10_state.md R37, 20_memory.md R78, R79). -/
namespace Sys2Proof.Machine

/-- The codes of R221; no other value is ever written to ERR_CODE. -/
def errorCodes : List (BitVec 8) :=
  [0x00#8, 0x01#8, 0x02#8, 0x03#8, 0x04#8, 0x05#8, 0x06#8, 0x07#8, 0x10#8, 0x11#8, 0x12#8, 0x13#8]

/-- No character twice in an alphabet (R160). -/
def distinctChars : List CharCode → Bool
  | [] => true
  | c :: rest => !rest.contains c && distinctChars rest

/-- CODEC_LEN is 0 or in 2..ALPHA_MAX, CODEC_VALID = 1 exactly when CODEC_LEN ≥ 2, and the committed alphabet has no
character twice (R37, R160, R162). -/
def State.codecWf (s : State) : Bool :=
  (s.codecLen == 0#64 || (2 ≤ s.codecLen.toNat && s.codecLen.toNat ≤ Config.alphaMax))
    && (s.codecValid == decide (2 ≤ s.codecLen.toNat))
    && distinctChars s.alphabet

/-- The three tables are in canonical form (log entry 5). -/
def State.tablesWf (s : State) : Bool :=
  s.alphaStage.wf Config.alphaMax && s.codecTab.wf Config.alphaMax && s.str.wf Config.strMax

/-- The invariant that every step keeps: the codec's, ERR_CODE one of R221's codes, TRACE_CLASS never 3 (R111), and
the tables' form. -/
def State.inv (s : State) : Bool :=
  s.codecWf && errorCodes.contains s.errCode && s.traceClass != 3#2 && s.tablesWf

/-- The registers of the block: two states with the same block differ only in what is the model's own. -/
def State.sameBlock (s t : State) : Prop :=
  t = { s with freeCount := t.freeCount, host := t.host, turns := t.turns }

/-- The value that unmix recovers from bits 63:8 of a mixed value `m` of class `c` (R128). -/
def recovered (c : SizeClass) (m : Word) : Word :=
  if m.getLsbD 2 && c == .medium then (m >>> 8) &&& 0xFFFF#64
  else if m.getLsbD 2 && c == .large then (m >>> 8) &&& 0xFFFFFFFF#64
  else m >>> 8

/-- The number that a list of digit values stands for in base `n`, the most significant first (R163). -/
def positional (n : Nat) (ds : List Nat) : Nat := ds.foldl (fun e d => e * n + d) 0

/-- The string in STR has the digit values `ds` in the committed alphabet (R162). -/
def stringDigits (s : State) (ds : List Nat) : Prop :=
  ds.length = s.strLen.toNat
    ∧ ∀ (i : Nat) (h : i < ds.length), ds[i] < s.codecLen.toNat ∧ s.str.read i = s.codecTab.read ds[i]

/-- The end of a run: BUSY = 0 and the host program has no step left (R79). -/
def State.runOver (s : State) : Bool := !s.busy && s.host.line.isNone

/-- The registers a host may not read before it has seen BUSY = 0 (R263). -/
def Reg.isResult : Reg → Bool
  | .result | .str _ | .strLen | .errInfo0 | .errInfo1 | .traceClass | .traceS1 | .traceS2 | .traceFinal => true
  | _ => false

/-- The commands that use the committed codec (R78, R262). -/
def Instr.usesCodec : Instr → Bool
  | .codecEncode | .codecDecode | .encode | .decode => true
  | .mix | .unmix | .classify | .codecNew => false

/-- The command a write to CMD would start. -/
def issuedCommand (off : Offset) (v : Word) : Option Instr :=
  if regAt off = .cmd then (decode v).toOption else none

/-- The Host's next line keeps the duties of R78 that one state shows: nothing but STATUS is written and no result is
read while BUSY = 1, and no command that uses a codec is issued before one is committed. The duty about KEY is
`keepsKeyDuty`. -/
def State.hostKeepsDuties (s : State) : Bool :=
  match s.host.line with
  | some (.wr off _ e) =>
    (!s.busy || regAt off == .status)
      && (s.codecValid || !((issuedCommand off (e.eval s.host)).any Instr.usesCodec))
  | some (.rd off _ _) => !s.busy || !(regAt off).isResult
  | _ => true

/-- The duty of R78 and R264 about KEY, over the accepted writes of a run in their order: KEY is written again before
each keyed command. `fresh` says that KEY has been written since the last keyed command. -/
def keepsKeyDuty (fresh : Bool) : List (Offset × Word) → Bool
  | [] => true
  | (off, v) :: rest =>
    if regAt off = .key then keepsKeyDuty true rest
    else if (issuedCommand off v).any Instr.keyed then fresh && keepsKeyDuty false rest
    else keepsKeyDuty fresh rest

end Sys2Proof.Machine
end

