-- ==== Sys2Proof/Certificates/Slice0/Obligations.lean ====
section
/-! DEFINITION. The statements for the provers. Each docstring names the rule of spec/ it formalises. -/

open Sys2Proof Sys2Proof.Machine

/-! ### Encoding -/

/-- R92, R95: every word is either one of the eight commands, and then exactly the word the encoder gives, or the
decoder refuses it. -/
def Obligations.DecodeInvertsEncode : Prop :=
  ∀ (w : Word) (i : Instr), Sys2Proof.decode w = .ok i ↔ w = Sys2Proof.encode i

/-- R92: the words of the eight commands, written out bit by bit from the format of R90, decode to the command each
stands for; a word with a reserved bit set or an unassigned opcode does not decode. -/
def Obligations.WrittenWordsDecode : Prop :=
  decodeBytes [0b00000001#8, 0, 0, 0, 0, 0, 0, 0] = .ok (.mix, [])
    ∧ decodeBytes [0b00000010#8, 0, 0, 0, 0, 0, 0, 0] = .ok (.unmix, [])
    ∧ decodeBytes [0b00000011#8, 0, 0, 0, 0, 0, 0, 0] = .ok (.classify, [])
    ∧ decodeBytes [0b00010000#8, 0, 0, 0, 0, 0, 0, 0] = .ok (.codecNew, [])
    ∧ decodeBytes [0b00010001#8, 0, 0, 0, 0, 0, 0, 0] = .ok (.codecEncode, [])
    ∧ decodeBytes [0b00010010#8, 0, 0, 0, 0, 0, 0, 0] = .ok (.codecDecode, [])
    ∧ decodeBytes [0b00100000#8, 0, 0, 0, 0, 0, 0, 0] = .ok (.encode, [])
    ∧ decodeBytes [0b00100001#8, 0, 0, 0, 0, 0, 0, 0] = .ok (.decode, [])
    ∧ decodeBytes [0b00000001#8, 0b00000001#8, 0, 0, 0, 0, 0, 0] = .error .reservedBitsSet
    ∧ decodeBytes [0b00000100#8, 0, 0, 0, 0, 0, 0, 0] = .error (.unassignedOpcode 4#8)

/-- R63: the bytes of an access are those of its word, byte k carrying bits 8k+7..8k; laid out and read back they give
the word. -/
def Obligations.BytesAreLittleEndian : Prop :=
  (∀ (w : Word) (k j : Nat), j < 8 → (byteLane w k).getLsbD j = w.getLsbD (8 * k + j))
    ∧ ∀ w : Word, wordOfBytes (byteLane w 0) (byteLane w 1) (byteLane w 2) (byteLane w 3)
        (byteLane w 4) (byteLane w 5) (byteLane w 6) (byteLane w 7) = w

/-! ### The Engine -/

/-- While BUSY = 1 and it is the Engine's turn, a step is the Complete step of the command in CMD (R93); around it the
step only takes the turn. When it is the Engine's turn is the model's choice (log entry 6, DESIGN CHOICE): the Engine is
first in the order of turns, or no order is given, and then the Engine, not the Host, moves while BUSY = 1. The second
part is about the model's own placing of a command word (log entry 10, DESIGN CHOICE): the next step runs the command
that was placed. -/
def Obligations.StepRunsDecodedCommand : Prop :=
  (∀ (s : State) (i : Instr), s.busy = true → (s.turns = [] ∨ s.turns.head? = some .engine) →
    Sys2Proof.decode s.cmd = .ok i → step s = exec i { s with turns := s.turns.tail })
  ∧ ∀ (s : State) (i : Instr),
    step (s.withFetchWord 64 (Sys2Proof.encode i).toNat) = exec i (s.withFetchWord 64 (Sys2Proof.encode i).toNat)

/-- R94: a word whose bits 63:8 are not all 0, or whose OPC is not one of the eight, completes with ILLEGAL_CMD and
the whole word as payload; nothing else changes, KEY included. -/
def Obligations.IllegalWordCompletesWithIllegalCmd : Prop :=
  ∀ s : State, s.busy = true →
    (s.cmd.toNat / 256 ≠ 0 ∨ s.cmd.toNat % 256 ∉ [0x01, 0x02, 0x03, 0x10, 0x11, 0x12, 0x20, 0x21]) →
    engineTurn s = .next { s with busy := false, errCode := 0x10#8, errInfo0 := s.cmd, errInfo1 := 0#64 }

/-- R93, R98, R222: every command ends in exactly one completion, which records a code and its payload, zeroes KEY
exactly after a keyed command and clears BUSY; no command writes CMD, CTRL, OPA, RAND_OVR, ALPHA_STAGE,
ALPHA_STAGE_LEN or LOST. -/
def Obligations.EveryCommandCompletes : Prop :=
  ∀ (i : Instr) (s : State), ∃ (t : State) (c : Completion), exec i s = .next t
    ∧ t.busy = false ∧ t.errCode = c.code ∧ t.errInfo0 = c.info0 ∧ t.errInfo1 = c.info1
    ∧ t.key = (if i ∈ [Instr.mix, .unmix, .encode, .decode] then 0#64 else s.key)
    ∧ t.cmd = s.cmd ∧ t.lost = s.lost ∧ t.randMode = s.randMode ∧ t.traceEn = s.traceEn ∧ t.opa = s.opa
    ∧ t.randOvr = s.randOvr ∧ t.alphaStage = s.alphaStage ∧ t.alphaStageLen = s.alphaStageLen
    ∧ t.host = s.host ∧ t.turns = s.turns

/-- R224: a command that completes with an error writes only ERR_CODE and ERR_INFO, zeroes KEY if it is keyed, and
clears BUSY; only trace registers may differ besides, and only with TRACE_EN = 1. R33: RESULT is then written only on
success, and neither CODEC_NEW nor CODEC_ENCODE writes it at all. -/
def Obligations.ErrorCompletionWritesNoResult : Prop :=
  (∀ (i : Instr) (s t : State), exec i s = .next t → t.errCode ≠ 0x00#8 →
    t = { s with
          busy := false, errCode := t.errCode, errInfo0 := t.errInfo0, errInfo1 := t.errInfo1
          key := if i.keyed then 0#64 else s.key
          traceClass := t.traceClass, traceS1 := t.traceS1, traceS2 := t.traceS2, traceFinal := t.traceFinal }
    ∧ (s.traceEn = false → t.traceClass = s.traceClass ∧ t.traceS1 = s.traceS1 ∧ t.traceS2 = s.traceS2
        ∧ t.traceFinal = s.traceFinal))
  ∧ ∀ (i : Instr) (s t : State), (i = .codecNew ∨ i = .codecEncode) → exec i s = .next t → t.result = s.result

/-! ### SizeClassifier -/

/-- R110: classify compares with 0xFFFF and 0xFFFF_FFFF only. -/
def Obligations.ClassifyComparesTwoThresholds : Prop :=
  ∀ v : Word, (classify v = .small ↔ v.toNat ≤ 65535)
    ∧ (classify v = .medium ↔ 65535 < v.toNat ∧ v.toNat ≤ 4294967295)
    ∧ (classify v = .large ↔ 4294967295 < v.toNat)

/-- R112, R113: the mask widths and the salt shifts of the classes. -/
def Obligations.ClassFixesMaskWidthAndShift : Prop :=
  (SizeClass.small.maskWidth = 16 ∧ SizeClass.medium.maskWidth = 32 ∧ SizeClass.large.maskWidth = 56)
    ∧ (SizeClass.small.saltShift = 8 ∧ SizeClass.medium.saltShift = 16 ∧ SizeClass.large.saltShift = 32)

/-- mask(c) has exactly its maskWidth(c) low bits set. This is the spec's own inference: R114 says "Reading a mask of
width w as the w low-order bits set is the spec's reading" (log entry 13). -/
def Obligations.MaskKeepsLowBits : Prop :=
  ∀ (c : SizeClass) (i : Nat), c.mask.getLsbD i = decide (i < c.maskWidth)

/-- R115: CLASSIFY writes one of three words to RESULT and completes without error; nothing else changes. -/
def Obligations.ClassifyReportsClass : Prop :=
  Sys2Proof.encode .classify = 0x3#64 ∧ ∀ s : State,
    exec .classify s = .next { s with
      result :=
        if s.opa.toNat ≤ 65535 then 0x00081000#64
        else if s.opa.toNat ≤ 4294967295 then 0x00102001#64
        else 0x00203802#64
      busy := false, errCode := 0x00#8, errInfo0 := 0#64, errInfo1 := 0#64 }

/-! ### Mixer -/

/-- Parity is the XOR of all bits (R120); it splits over XOR, and two values that differ in an even number of bits have
the same parity: two identities that R120 marks as "derived: from the definition". -/
def Obligations.ParityFoldsBits : Prop :=
  (∀ x : Word, parity x = (List.range 64).foldl (fun b i => b ^^ x.getLsbD i) false)
    ∧ (∀ a b : Word, parity (a ^^^ b) = (parity a ^^ parity b))
    ∧ (∀ a b : Word, popcount (a ^^^ b) % 2 = 0 → parity a = parity b)
    ∧ parity 0#64 = false

/-- R125, the DOMAIN error: an id above MAX_U56 is rejected with the id and the limit; no rand is drawn, no trace
register, RESULT or other state is written, and KEY is zeroed. -/
def Obligations.MixRejectsIdAboveDomain : Prop :=
  ∀ s : State, 0x00FFFFFFFFFFFFFF < s.opa.toNat →
    exec .mix s = .next { s with
      key := 0#64, busy := false, errCode := 0x01#8, errInfo0 := s.opa, errInfo1 := 0x00FFFFFFFFFFFFFF#64 }

/-- MIX of an id in the domain completes (R93, R125) with a MixedValue whose every field is given (R121), for every
answer of the Entropy source: rand (R122), paddingFlag (R124), the parity of scrambled1, the parity of scrambled2 before
the boundary bit, and scrambled2 with the boundary bit where it pads (R123, R124). The frame (R125): only RESULT, KEY,
the completion and the trace registers change, and the model's count of draws. That a draw is numbered by this count and
that the count advances is the model's choice (log entry 2, DESIGN CHOICE). -/
def Obligations.MixCompletesWithMixedValue : Prop :=
  ∀ s : State, s.opa.toNat ≤ 0x00FFFFFFFFFFFFFF →
    ∃ t : State, exec .mix s = .next t
      ∧ t = { s with
          result := t.result, key := 0#64, busy := false, errCode := 0x00#8, errInfo0 := 0#64, errInfo1 := 0#64
          traceClass := t.traceClass, traceS1 := t.traceS1, traceS2 := t.traceS2, traceFinal := t.traceFinal
          freeCount := if s.randMode then s.freeCount else s.freeCount + 1 }
      ∧ (let rand := if s.randMode then s.randOvr else Config.entropyDraw s.freeCount
         let c := classify s.opa
         let s1 := (s.key &&& c.mask) ^^^ s.opa
         let s2 := s1 ^^^ ((rand.setWidth 64 <<< c.saltShift) ^^^ (s.key &&& c.mask))
         let pad := (c == .medium && decide (s2.toNat ≤ 0xFFFF)) || (c == .large && decide (s2.toNat ≤ 0xFFFFFFFF))
         mixedRand t.result = rand ∧ mixedPad t.result = pad
          ∧ mixedKeyParity t.result = parity s1
          ∧ mixedSaltParity t.result = parity s2
          ∧ mixedScrambled t.result =
              if pad then (if c = .medium then s2 ||| 0x10000#64 else s2 ||| 0x100000000#64) else s2)

/-- R126: with TRACE_EN = 1 a mix in the domain writes the four trace registers, with TRACE_EN = 0 none, and a
rejected mix writes none. -/
def Obligations.MixTracePoints : Prop :=
  ∀ s t : State, exec .mix s = .next t →
    (s.traceEn = true → s.opa.toNat ≤ 0x00FFFFFFFFFFFFFF →
      t.traceClass = (classify s.opa).code ∧ t.traceS1 = (s.key &&& (classify s.opa).mask) ^^^ s.opa
        ∧ t.traceS2 = mixedScrambled t.result ∧ t.traceFinal = t.result)
    ∧ ((s.traceEn = false ∨ 0x00FFFFFFFFFFFFFF < s.opa.toNat) →
      t.traceClass = s.traceClass ∧ t.traceS1 = s.traceS1 ∧ t.traceS2 = s.traceS2 ∧ t.traceFinal = s.traceFinal)

/-- No value of mix is truncated: for an id in the domain scrambled1 and scrambled2 are below 2^56, and the MixedValue
is exactly scrambled2 * 256 + ControlByte. R10 and R123 mark this as derived: "No value is truncated" (log entry 11). -/
def Obligations.MixNeverTruncates : Prop :=
  ∀ (key id : Word) (rand : BitVec 5), id.toNat ≤ 0x00FFFFFFFFFFFFFF →
    (mixCore key id rand).s1.toNat < 2 ^ 56 ∧ (mixCore key id rand).s2.toNat < 2 ^ 56
      ∧ ∃ cb : BitVec 8, (mixCore key id rand).mixed.toNat = (mixCore key id rand).s2.toNat * 256 + cb.toNat

/-- R127, R128, R129, R130: UNMIX whose two parity checks pass completes with maskedKey XOR unsalted; the trace
registers are written with TRACE_EN = 1; the frame. -/
def Obligations.UnmixCompletesWithId : Prop :=
  ∀ s : State,
    let c := classify (s.opa >>> 8)
    let s2 := recovered c s.opa
    let nonce := (s.opa.extractLsb' 3 5).setWidth 64 <<< c.saltShift
    let unsalted := s2 ^^^ (nonce ^^^ (s.key &&& c.mask))
    parity s2 = s.opa.getLsbD 0 → parity unsalted = s.opa.getLsbD 1 →
    exec .unmix s = .next { s with
      result := (s.key &&& c.mask) ^^^ unsalted, key := 0#64, busy := false, errCode := 0x00#8, errInfo0 := 0#64, errInfo1 := 0#64
      traceClass := if s.traceEn then c.code else s.traceClass
      traceS1 := if s.traceEn then s2 else s.traceS1
      traceS2 := if s.traceEn then unsalted else s.traceS2
      traceFinal := if s.traceEn then (s.key &&& c.mask) ^^^ unsalted else s.traceFinal }

/-- R127, R129, R130, the errors of UNMIX in their order: when the recovered value's parity is not bit 0 it completes
with CHECKSUM_RANDSALT, whatever the key check would say, TRACE_S2 and TRACE_FINAL kept; when that check passes and the
key check fails, with CHECKSUM_KEY, TRACE_FINAL kept. -/
def Obligations.UnmixErrorsInOrder : Prop :=
  ∀ s : State,
    let c := classify (s.opa >>> 8)
    let s2 := recovered c s.opa
    let unsalted := s2 ^^^ (((s.opa.extractLsb' 3 5).setWidth 64 <<< c.saltShift) ^^^ (s.key &&& c.mask))
    (parity s2 ≠ s.opa.getLsbD 0 →
      exec .unmix s = .next { s with
        key := 0#64, busy := false, errCode := 0x06#8, errInfo0 := s.opa, errInfo1 := 0#64
        traceClass := if s.traceEn then c.code else s.traceClass
        traceS1 := if s.traceEn then s2 else s.traceS1 })
    ∧ (parity s2 = s.opa.getLsbD 0 → parity unsalted ≠ s.opa.getLsbD 1 →
      exec .unmix s = .next { s with
        key := 0#64, busy := false, errCode := 0x07#8, errInfo0 := s.opa, errInfo1 := 0#64
        traceClass := if s.traceEn then c.code else s.traceClass
        traceS1 := if s.traceEn then s2 else s.traceS1
        traceS2 := if s.traceEn then unsalted else s.traceS2 })

/-- For every 64-bit input, the id a successful UNMIX returns is in the domain and does not depend on the key: it is
the recovered scrambled2 XOR (rand << shift). The spec marks both as derived: R127's "The id is always ≤ MAX_U56" and
R131's "whatever the key". -/
def Obligations.UnmixResultInDomain : Prop :=
  ∀ s t : State, exec .unmix s = .next t → t.errCode = 0x00#8 →
    t.result.toNat ≤ 0x00FFFFFFFFFFFFFF
      ∧ (let c := classify (s.opa >>> 8)
         t.result = recovered c s.opa ^^^ ((s.opa.extractLsb' 3 5).setWidth 64 <<< c.saltShift))

/-- The three parts of R132, which the spec derives from R123, R124, R127 and R128: MIX keeps the class of the id; it pads exactly when the id's bits above the boundary are
the rand drawn, and then rand is not 0 and scrambled2 is the id's low part with the boundary bit; and UNMIX of the
MixedValue with the same key gives the id back. -/
def Obligations.MixThenUnmixGivesId : Prop :=
  ∀ s : State, s.opa.toNat ≤ 0x00FFFFFFFFFFFFFF →
    ∃ t u : State, exec .mix s = .next t
      ∧ classify (mixedScrambled t.result) = classify s.opa
      ∧ (mixedPad t.result = true ↔
          (classify s.opa = .medium ∧ s.opa.toNat / 2 ^ 16 % 2 ^ 16 = (mixedRand t.result).toNat)
            ∨ (classify s.opa = .large ∧ s.opa.toNat / 2 ^ 32 % 2 ^ 24 = (mixedRand t.result).toNat))
      ∧ (mixedPad t.result = true → (mixedRand t.result).toNat ≠ 0
          ∧ mixedScrambled t.result =
              if classify s.opa = .medium then (s.opa &&& 0xFFFF#64) ||| 0x10000#64
              else (s.opa &&& 0xFFFFFFFF#64) ||| 0x100000000#64)
      ∧ exec .unmix { t with key := s.key, opa := t.result } = .next u
      ∧ u.errCode = 0x00#8 ∧ u.result = s.opa

/-- R133, which the spec derives from R120, R127 and R131: UNMIX of a MixedValue with a wrong key raises CHECKSUM_KEY
exactly when the keys differ in an odd number of masked bits; otherwise it returns the same id. -/
def Obligations.WrongKeyIsCaughtOrHarmless : Prop :=
  ∀ (s : State) (k : Word), s.opa.toNat ≤ 0x00FFFFFFFFFFFFFF → k ≠ s.key →
    ∃ t u : State, exec .mix s = .next t
      ∧ exec .unmix { t with key := k, opa := t.result } = .next u
      ∧ (parity ((s.key ^^^ k) &&& (classify s.opa).mask) = true → u.errCode = 0x07#8 ∧ u.result = t.result)
      ∧ (parity ((s.key ^^^ k) &&& (classify s.opa).mask) = false → u.errCode = 0x00#8 ∧ u.result = s.opa)

/-- The four cases of R134, which the spec derives from R120 and R127: a corrupted MixedValue unmixed with the same
key. -/
def Obligations.TamperOutcomes : Prop :=
  ∀ (s : State) (e : Word), s.opa.toNat ≤ 0x00FFFFFFFFFFFFFF →
    ∃ t u : State, exec .mix s = .next t
      ∧ exec .unmix { t with key := s.key, opa := t.result ^^^ e } = .next u
      ∧ (e = 1#64 → u.errCode = 0x06#8)
      ∧ (e = 2#64 → u.errCode = 0x07#8)
      ∧ (∀ d : BitVec 5, d ≠ 0#5 → e = d.setWidth 64 <<< 3 →
          (parity (d.setWidth 64) = true → u.errCode = 0x07#8)
          ∧ (parity (d.setWidth 64) = false → u.errCode = 0x00#8
              ∧ u.result = s.opa ^^^ (d.setWidth 64 <<< (classify s.opa).saltShift)))
      ∧ (e.extractLsb' 0 8 = 0#8 → classify ((t.result ^^^ e) >>> 8) = classify s.opa →
          parity (recovered (classify s.opa) (t.result ^^^ e) ^^^ recovered (classify s.opa) t.result) = true →
          u.errCode = 0x06#8)

/-- With TRACE_EN = 0, what a host can read after a MIX depends on the key in one bit only, RESULT[1]. At
offsets that are not multiples of 8 what a read gives is the model's choice (log entry 16). The rest follows from R131, which the spec marks as derived: "Only keyParity = parity(maskedKey) XOR parity(id) depends on the key". -/
def Obligations.MixShowsKeyInOneBit : Prop :=
  ∀ (s : State) (k : Word), s.traceEn = false →
    ∃ t u : State, exec .mix s = .next t ∧ exec .mix { s with key := k } = .next u
      ∧ (∀ off : Offset, off ≠ 0x0030#16 → t.hostRead off = u.hostRead off)
      ∧ ∀ j : Nat, j ≠ 1 → t.result.getLsbD j = u.result.getLsbD j

/-! ### AlphabetCodec -/

/-- R161: a candidate of 2 to ALPHA_MAX distinct characters is committed; the frame (the entries of CODEC_TAB at and
above the new length hold unspecified values, R42). -/
def Obligations.CodecNewCommitsAlphabet : Prop :=
  ∀ s : State, 2 ≤ s.alphaStageLen.toNat → s.alphaStageLen.toNat ≤ 256 →
    (∀ i j : Nat, i < j → j < s.alphaStageLen.toNat → s.alphaStage.read i ≠ s.alphaStage.read j) →
    ∃ t : State, exec .codecNew s = .next t
      ∧ t = { s with
          codecTab := t.codecTab, codecLen := s.alphaStageLen, codecValid := true
          busy := false, errCode := 0x00#8, errInfo0 := 0#64, errInfo1 := 0#64, freeCount := t.freeCount }
      ∧ ∀ i : Nat, i < s.alphaStageLen.toNat → t.codecTab.read i = s.alphaStage.read i

/-- R161, the three errors in their priority: too long before all else; the smallest index whose character occurs
earlier; too short. The committed codec is kept on each. -/
def Obligations.CodecNewErrorsInOrder : Prop :=
  ∀ s : State,
    (256 < s.alphaStageLen.toNat →
      exec .codecNew s = .next { s with
        busy := false, errCode := 0x12#8, errInfo0 := s.alphaStageLen, errInfo1 := 256#64 })
    ∧ (∀ i j : Nat, s.alphaStageLen.toNat ≤ 256 → i < j → j < s.alphaStageLen.toNat →
        s.alphaStage.read i = s.alphaStage.read j →
        (∀ k l : Nat, k < l → l < j → s.alphaStage.read k ≠ s.alphaStage.read l) →
        exec .codecNew s = .next { s with
          busy := false, errCode := 0x02#8, errInfo0 := BitVec.ofNat 64 j
          errInfo1 := (s.alphaStage.read j).setWidth 64 })
    ∧ (s.alphaStageLen.toNat < 2 →
      exec .codecNew s = .next { s with
        busy := false, errCode := 0x03#8, errInfo0 := s.alphaStageLen, errInfo1 := 2#64 })

/-- R163, R164: CODEC_ENCODE writes the digits of OPA in base N, most significant first, each as its character: 1 to
64 of them (a bound R163 marks as derived), no leading zero digit but for the value 0; that the digits stand for the
value is R163's identity "[from general knowledge, not in source]"; the rest of STR is left alone; the frame. -/
def Obligations.CodecEncodeWritesPositionalDigits : Prop :=
  ∀ s : State, s.codecWf = true → s.codecValid = true →
    ∃ (t : State) (ds : List Nat), exec .codecEncode s = .next t
      ∧ t = { s with
          str := t.str, strLen := BitVec.ofNat 64 ds.length
          busy := false, errCode := 0x00#8, errInfo0 := 0#64, errInfo1 := 0#64 }
      ∧ 1 ≤ ds.length ∧ ds.length ≤ 64
      ∧ (∀ d ∈ ds, d < s.codecLen.toNat)
      ∧ positional s.codecLen.toNat ds = s.opa.toNat
      ∧ (s.opa = 0#64 → ds = [0]) ∧ (s.opa ≠ 0#64 → ds.head? ≠ some 0)
      ∧ (∀ (i : Nat) (h : i < ds.length), t.str.read i = s.codecTab.read ds[i])
      ∧ ∀ i : Nat, ds.length ≤ i → t.str.read i = s.str.read i

/-- R164, R166, R200, R201, R225: without a committed codec the four commands that use one complete with NO_CODEC
before any other check, draw or trace write; the keyed ones zero KEY. -/
def Obligations.NoCodecIsCheckedFirst : Prop :=
  ∀ s : State, s.codecValid = false →
    exec .codecEncode s = .next { s with busy := false, errCode := 0x11#8, errInfo0 := 0#64, errInfo1 := 0#64 }
    ∧ exec .codecDecode s = .next { s with busy := false, errCode := 0x11#8, errInfo0 := 0#64, errInfo1 := 0#64 }
    ∧ exec .encode s = .next { s with
        key := 0#64, busy := false, errCode := 0x11#8, errInfo0 := 0#64, errInfo1 := 0#64 }
    ∧ exec .decode s = .next { s with
        key := 0#64, busy := false, errCode := 0x11#8, errInfo0 := 0#64, errInfo1 := 0#64 }

/-- R165, R166: CODEC_DECODE of a string of the alphabet whose exact value is at most MAX_U64 gives that value; the
empty string gives 0, and leading zero digits are accepted; the frame. -/
def Obligations.CodecDecodeGivesStringValue : Prop :=
  ∀ (s : State) (ds : List Nat), s.codecWf = true → s.codecValid = true → s.strLen.toNat ≤ 128 →
    stringDigits s ds → positional s.codecLen.toNat ds ≤ 0xFFFFFFFFFFFFFFFF →
    exec .codecDecode s = .next { s with
      result := BitVec.ofNat 64 (positional s.codecLen.toNat ds)
      busy := false, errCode := 0x00#8, errInfo0 := 0#64, errInfo1 := 0#64 }

/-- R165, R166: the errors of CODEC_DECODE with a codec, in their priority: too long; the first character that is not
in the alphabet, anywhere in the string; the exact value above MAX_U64, reported mod 2^128. -/
def Obligations.CodecDecodeErrorsInOrder : Prop :=
  ∀ s : State, s.codecWf = true → s.codecValid = true →
    (128 < s.strLen.toNat →
      exec .codecDecode s = .next { s with
        busy := false, errCode := 0x13#8, errInfo0 := s.strLen, errInfo1 := 128#64 })
    ∧ (∀ i : Nat, s.strLen.toNat ≤ 128 → i < s.strLen.toNat →
        (∀ d : Nat, d < s.codecLen.toNat → s.codecTab.read d ≠ s.str.read i) →
        (∀ k : Nat, k < i → ∃ d : Nat, d < s.codecLen.toNat ∧ s.codecTab.read d = s.str.read k) →
        exec .codecDecode s = .next { s with
          busy := false, errCode := 0x04#8, errInfo0 := BitVec.ofNat 64 i
          errInfo1 := (s.str.read i).setWidth 64 })
    ∧ (∀ ds : List Nat, s.strLen.toNat ≤ 128 → stringDigits s ds →
        0xFFFFFFFFFFFFFFFF < positional s.codecLen.toNat ds →
        exec .codecDecode s = .next { s with
          busy := false, errCode := 0x05#8
          errInfo0 := BitVec.ofNat 64 (positional s.codecLen.toNat ds % 2 ^ 64)
          errInfo1 := BitVec.ofNat 64 (positional s.codecLen.toNat ds / 2 ^ 64 % 2 ^ 64) })

/-- The hardware realisation of R165, a 128-bit accumulator that wraps with a sticky flag, gives the same results as
the exact value: the same value, or the same completion code and payload. R165 marks this as derived: "This gives the
same results, for two reasons". -/
def Obligations.WrappingAccumulatorIsExact : Prop :=
  ∀ alpha str : List CharCode, 2 ≤ alpha.length → alpha.length ≤ 512 →
    match decodeString alpha str, decodeString128 alpha str with
    | .ok v, .ok w => v = w
    | .error c, .error d => c.code = d.code ∧ c.info0 = d.info0 ∧ c.info1 = d.info1
    | _, _ => False

/-- R167, which the spec derives from R163 and R165: for every committed alphabet and every value, CODEC_ENCODE followed by CODEC_DECODE gives the value back
without error, through a string of 1 to 64 characters. -/
def Obligations.CodecEncodeThenDecodeGivesValue : Prop :=
  ∀ s : State, s.codecWf = true → s.codecValid = true →
    ∃ t u : State, exec .codecEncode s = .next t ∧ exec .codecDecode t = .next u
      ∧ u.result = s.opa ∧ u.errCode = 0x00#8 ∧ 1 ≤ t.strLen.toNat ∧ t.strLen.toNat ≤ 64

/-! ### Facade -/

/-- R200: ENCODE of an id in the domain is MIX followed by CODEC_ENCODE of the MixedValue, OPA left as it was; of an id
above it, the DOMAIN error of MIX, STR, STR_LEN and RESULT unchanged. -/
def Obligations.EncodeIsMixThenCodecEncode : Prop :=
  ∀ s : State, s.codecValid = true →
    (s.opa.toNat ≤ 0x00FFFFFFFFFFFFFF →
      ∃ t u : State, exec .mix s = .next t ∧ exec .codecEncode { t with opa := t.result } = .next u
        ∧ exec .encode s = .next { u with opa := s.opa })
    ∧ (0x00FFFFFFFFFFFFFF < s.opa.toNat →
      exec .encode s = .next { s with
        key := 0#64, busy := false, errCode := 0x01#8, errInfo0 := s.opa, errInfo1 := 0x00FFFFFFFFFFFFFF#64 })

/-- R201: DECODE is CODEC_DECODE followed by UNMIX of the value; an error of the codec stage is the command's, no trace
register written; RESULT is written only by the unmix stage. -/
def Obligations.DecodeIsCodecDecodeThenUnmix : Prop :=
  ∀ s : State, ∃ t : State, exec .codecDecode s = .next t
    ∧ (t.errCode ≠ 0x00#8 → exec .decode s = .next { t with key := 0#64 })
    ∧ (t.errCode = 0x00#8 → ∃ u : State,
        exec .unmix { t with opa := t.result, result := s.result } = .next u
        ∧ exec .decode s = .next { u with opa := s.opa })

/-- R201: DECODE of a string of the alphabet whose value passes both parity checks completes with the id; the frame. -/
def Obligations.DecodeCompletesWithId : Prop :=
  ∀ (s : State) (ds : List Nat), s.codecWf = true → s.codecValid = true → s.strLen.toNat ≤ 128 →
    stringDigits s ds → positional s.codecLen.toNat ds ≤ 0xFFFFFFFFFFFFFFFF →
    let v := BitVec.ofNat 64 (positional s.codecLen.toNat ds)
    let c := classify (v >>> 8)
    let nonce := (v.extractLsb' 3 5).setWidth 64 <<< c.saltShift
    let unsalted := recovered c v ^^^ (nonce ^^^ (s.key &&& c.mask))
    parity (recovered c v) = v.getLsbD 0 → parity unsalted = v.getLsbD 1 →
    exec .decode s = .next { s with
      result := (s.key &&& c.mask) ^^^ unsalted, key := 0#64
      busy := false, errCode := 0x00#8, errInfo0 := 0#64, errInfo1 := 0#64
      traceClass := if s.traceEn then c.code else s.traceClass
      traceS1 := if s.traceEn then recovered c v else s.traceS1
      traceS2 := if s.traceEn then unsalted else s.traceS2
      traceFinal := if s.traceEn then (s.key &&& c.mask) ^^^ unsalted else s.traceFinal }

/-- R202, which the spec derives from R167, R132 and R133: ENCODE, then KEY written again and DECODE, gives the id back for every key, id in the domain, committed
alphabet and rand; without the rewrite DECODE runs with key 0 and returns the id or CHECKSUM_KEY. -/
def Obligations.EncodeThenDecodeGivesId : Prop :=
  ∀ s : State, s.codecWf = true → s.codecValid = true → s.opa.toNat ≤ 0x00FFFFFFFFFFFFFF →
    ∃ t u v : State, exec .encode s = .next t
      ∧ engineTurn ((t.hostWrite 0x0020#16 s.key).hostWrite 0x0000#16 0x21#64) = .next u
      ∧ u.errCode = 0x00#8 ∧ u.result = s.opa
      ∧ engineTurn (t.hostWrite 0x0000#16 0x21#64) = .next v
      ∧ ((v.errCode = 0x00#8 ∧ v.result = s.opa) ∨ v.errCode = 0x07#8)

/-! ### The register space -/

/-- R64, R65: each offset names at most one register: a mapped offset is the offset of the register it names, and the
offset of a register names it. -/
def Obligations.RegisterMapHasNoOverlap : Prop :=
  (∀ off : Offset, regAt off ≠ .unmapped → (regAt off).offset = some off.toNat)
    ∧ ∀ (r : Reg) (o : Nat), r.offset = some o → o < 2 ^ 16 ∧ o % 8 = 0 ∧ regAt (BitVec.ofNat 16 o) = r

/-- R65: an unmapped aligned offset reads 0; a write to one has no effect while BUSY = 0 and is lost while BUSY = 1. -/
def Obligations.UnmappedOffsets : Prop :=
  ∀ (s : State) (off : Offset) (v : Word), off.toNat % 8 = 0 →
    ((0x0088 ≤ off.toNat ∧ off.toNat < 0x1000) ∨ (0x1000 + 8 * 256 ≤ off.toNat ∧ off.toNat < 0x2000)
      ∨ (0x2000 + 8 * 256 ≤ off.toNat ∧ off.toNat < 0x3000)
      ∨ (0x3000 + 8 * 128 ≤ off.toNat ∧ off.toNat < 0x4000) ∨ 0x4000 ≤ off.toNat) →
    s.hostRead off = 0#64
      ∧ (s.busy = false → s.hostWrite off v = s)
      ∧ (s.busy = true → s.hostWrite off v = { s with lost := true })

/-- R24, R29, R30, R64, R66: what each register below the tables reads as; STATUS, CTRL and PARAMS field by field. -/
def Obligations.ControlRegistersReadTheirFields : Prop :=
  ∀ s : State,
    s.hostRead 0x0000#16 = s.cmd
    ∧ (s.hostRead 0x0008#16).toNat =
        s.busy.toNat + 2 * s.codecValid.toNat + 4 * s.lost.toNat + 256 * s.errCode.toNat
    ∧ (s.hostRead 0x0010#16).toNat = s.randMode.toNat + 2 * s.traceEn.toNat
    ∧ s.hostRead 0x0018#16 = 0x0000002000800100#64
    ∧ s.hostRead 0x0020#16 = 0#64
    ∧ s.hostRead 0x0028#16 = s.opa ∧ s.hostRead 0x0030#16 = s.result
    ∧ s.hostRead 0x0038#16 = s.errInfo0 ∧ s.hostRead 0x0040#16 = s.errInfo1
    ∧ (s.hostRead 0x0048#16).toNat = s.randOvr.toNat
    ∧ s.hostRead 0x0050#16 = s.alphaStageLen ∧ s.hostRead 0x0058#16 = s.codecLen
    ∧ s.hostRead 0x0060#16 = s.strLen
    ∧ (s.hostRead 0x0068#16).toNat = s.traceClass.toNat
    ∧ s.hostRead 0x0070#16 = s.traceS1 ∧ s.hostRead 0x0078#16 = s.traceS2 ∧ s.hostRead 0x0080#16 = s.traceFinal

/-- R41, R42, R43: a table entry reads its 32-bit code with bits 63:32 zero; CODEC_TAB at or above CODEC_LEN reads 0;
after a write while BUSY = 0 to ALPHA_STAGE[i] or STR[i], entry i reads bits 31:0 of the value written, and every other
entry and register reads as before. That a read at an offset that is not a multiple of 8 has a value at all is the
model's choice (log entry 16). -/
def Obligations.TableEntriesReadAndWrite : Prop :=
  ∀ (s : State) (i : Nat) (v : Word),
    (i < 256 →
      (s.hostRead (BitVec.ofNat 16 (0x1000 + 8 * i))).toNat = (s.alphaStage.read i).toNat
      ∧ (s.hostRead (BitVec.ofNat 16 (0x2000 + 8 * i))).toNat =
          (if i < s.codecLen.toNat then (s.codecTab.read i).toNat else 0)
      ∧ (s.busy = false → ∀ off : Offset,
          (s.hostWrite (BitVec.ofNat 16 (0x1000 + 8 * i)) v).hostRead off =
            if off.toNat = 0x1000 + 8 * i then (v.extractLsb' 0 32).setWidth 64 else s.hostRead off))
    ∧ (i < 128 →
      (s.hostRead (BitVec.ofNat 16 (0x3000 + 8 * i))).toNat = (s.str.read i).toNat
      ∧ (s.busy = false → ∀ off : Offset,
          (s.hostWrite (BitVec.ofNat 16 (0x3000 + 8 * i)) v).hostRead off =
            if off.toNat = 0x3000 + 8 * i then (v.extractLsb' 0 32).setWidth 64 else s.hostRead off))

/-- R67, R70: what a write while BUSY = 0 does, offset by offset: the registers below the tables, the two tables a host
writes, and everything else, which ignores it. The rules speak of multiples of 8; that a write at any other offset is
ignored is the model's choice (log entry 16, DESIGN CHOICE), and no step makes one. -/
def Obligations.WritesWhileIdle : Prop :=
  ∀ (s : State) (v : Word), s.busy = false →
    s.hostWrite 0x0000#16 v = { s with cmd := v, busy := true }
    ∧ s.hostWrite 0x0008#16 v = { s with lost := if v.getLsbD 2 then false else s.lost }
    ∧ s.hostWrite 0x0010#16 v = { s with randMode := v.getLsbD 0, traceEn := v.getLsbD 1 }
    ∧ s.hostWrite 0x0020#16 v = { s with key := v }
    ∧ s.hostWrite 0x0028#16 v = { s with opa := v }
    ∧ s.hostWrite 0x0048#16 v = { s with randOvr := v.extractLsb' 0 5 }
    ∧ s.hostWrite 0x0050#16 v = { s with alphaStageLen := v }
    ∧ s.hostWrite 0x0060#16 v = { s with strLen := v }
    ∧ (∀ i : Nat, i < 256 → s.hostWrite (BitVec.ofNat 16 (0x1000 + 8 * i)) v =
        { s with alphaStage := s.alphaStage.write i (v.extractLsb' 0 32) })
    ∧ (∀ i : Nat, i < 128 → s.hostWrite (BitVec.ofNat 16 (0x3000 + 8 * i)) v =
        { s with str := s.str.write i (v.extractLsb' 0 32) })
    ∧ (∀ off ∈ [0x0018#16, 0x0030#16, 0x0038#16, 0x0040#16, 0x0058#16, 0x0068#16, 0x0070#16, 0x0078#16, 0x0080#16],
        s.hostWrite off v = s)
    ∧ (∀ i : Nat, i < 256 → s.hostWrite (BitVec.ofNat 16 (0x2000 + 8 * i)) v = s)
    ∧ ∀ off : Offset, regAt off = .unmapped → s.hostWrite off v = s

/-- R68: a write while BUSY = 1 to any offset but STATUS changes nothing except LOST, which it sets. The rule speaks of
multiples of 8 (R62); that a write at any other offset does the same is the model's choice (log entry 16, DESIGN
CHOICE), and no step makes one. -/
def Obligations.WriteWhileBusyIsLost : Prop :=
  ∀ (s : State) (off : Offset) (v : Word), s.busy = true → off ≠ 0x0008#16 →
    s.hostWrite off v = { s with lost := true }

/-- R69: a write to STATUS is accepted whatever BUSY is: bit 2 = 1 clears LOST, otherwise nothing changes. -/
def Obligations.StatusWriteClearsLost : Prop :=
  ∀ (s : State) (v : Word),
    (v.getLsbD 2 = true → s.hostWrite 0x0008#16 v = { s with lost := false })
    ∧ (v.getLsbD 2 = false → s.hostWrite 0x0008#16 v = s)

/-! ### Reset -/

/-- R260: the Reset event, in one step and whatever BUSY is, gives every register its reset value and aborts a pending
command; each table entry takes a free value. The Host agent is left alone (the model's choice, log entry 8). -/
def Obligations.ResetEventSetsEveryRegister : Prop :=
  ∀ s : State, s.agent = .reset →
    ∃ t : State, step s = .next t
      ∧ t = { s with
          cmd := 0#64, busy := false, codecValid := false, lost := false, errCode := 0x00#8
          randMode := false, traceEn := false, key := 0#64, opa := 0#64, result := 0#64
          errInfo0 := 0#64, errInfo1 := 0#64, randOvr := 0#5, alphaStageLen := 0#64, codecLen := 0#64
          strLen := 0#64, traceClass := 0#2, traceS1 := 0#64, traceS2 := 0#64, traceFinal := 0#64
          alphaStage := t.alphaStage, codecTab := t.codecTab, str := t.str
          freeCount := t.freeCount, turns := s.turns.tail }
      ∧ (∀ i : Nat, i < 256 → t.alphaStage.read i = Config.resetAlphaStage s.freeCount i
          ∧ t.codecTab.read i = Config.resetCodecTab s.freeCount i)
      ∧ ∀ i : Nat, i < 128 → t.str.read i = Config.resetStr s.freeCount i

/-- R45, R261: after reset every register but PARAMS reads 0, KEY is 0 and the block is idle. The contents of
ALPHA_STAGE and STR are not claimed: the spec leaves them open. That a read at an offset that is not a multiple of 8
gives 0 is the model's choice (log entry 16, DESIGN CHOICE), and no step makes one. -/
def Obligations.ResetStateReadsZero : Prop :=
  State.reset.key = 0#64 ∧ State.reset.busy = false
    ∧ ∀ off : Offset, off ≠ 0x0018#16 →
        (off.toNat < 0x1000 ∨ (0x2000 ≤ off.toNat ∧ off.toNat < 0x3000)) → State.reset.hostRead off = 0#64

/-! ### The whole machine -/

/-- The invariant is kept by every step of every agent: the codec's length and validity (R37, which the spec derives
from R26 and R161), no character twice (R160), the codes of R221, no TRACE_CLASS 3 (R111), and the tables' form (the
model's choice, log entry 5). -/
def Obligations.StepKeepsInvariant : Prop :=
  ∀ s t : State, s.inv = true → step s = .next t → t.inv = true

/-- The invariant holds at reset. -/
def Obligations.InvariantHoldsAtReset : Prop := State.reset.inv = true

/-- R26, R42, R160: the committed codec changes only by a successful CODEC_NEW or a Reset. -/
def Obligations.OnlyCodecNewOrResetChangesCodec : Prop :=
  ∀ s t : State, step s = .next t →
    (t.codecValid ≠ s.codecValid ∨ t.codecLen ≠ s.codecLen ∨ t.codecTab ≠ s.codecTab) →
    s.agent = .reset ∨ (s.agent = .engine ∧ s.busy = true ∧ s.cmd = Sys2Proof.encode .codecNew ∧ t.errCode = 0x00#8)

/-- R25: BUSY is set only by a HostWrite to CMD made while BUSY = 0, and is cleared exactly by Complete and Reset; while
it stays 1, the word in CMD stays the pending command's. -/
def Obligations.BusySetByIssueClearedByCompletion : Prop :=
  ∀ s t : State, step s = .next t →
    (t.busy = true ↔
      (s.agent = .host ∧
        (s.busy = true ∨ ∃ (width : Nat) (e : HostExpr), s.host.line = some (.wr 0x0000#16 width e))))
    ∧ (s.busy = true → t.busy = true → t.cmd = s.cmd)

/-- R27, R68, R69: when LOST changes and when it does not, for every step of every agent. -/
def Obligations.LostIsSticky : Prop :=
  ∀ s t : State, step s = .next t →
    t.lost = match s.agent, s.host.line with
      | .reset, _ => false
      | .engine, _ => s.lost
      | .host, some (.wr off _ e) =>
        if off = 0x0008#16 then s.lost && !(e.eval s.host).getLsbD 2 else s.lost || s.busy
      | .host, _ => s.lost

/-- R31: KEY is write-only: no read depends on it (at an offset that is not a multiple of 8 what a read gives is the
model's choice, log entry 16), and its own offset reads 0; it changes only by a HostWrite to it
while BUSY = 0, by the Complete step of a keyed command, which leaves it 0, or by Reset, which leaves it 0. -/
def Obligations.KeyIsWriteOnlyAndZeroed : Prop :=
  (∀ (s : State) (k : Word) (off : Offset),
    State.hostRead { s with key := k } off = s.hostRead off ∧ s.hostRead 0x0020#16 = 0#64)
  ∧ ∀ s t : State, step s = .next t → t.key ≠ s.key →
    (s.agent = .host ∧ s.busy = false
        ∧ ∃ (width : Nat) (e : HostExpr), s.host.line = some (.wr 0x0020#16 width e) ∧ t.key = e.eval s.host)
    ∨ (s.agent = .engine ∧ s.busy = true ∧ t.key = 0#64
        ∧ s.cmd ∈ [0x01#64, 0x02#64, 0x20#64, 0x21#64])
    ∨ (s.agent = .reset ∧ t.key = 0#64)

/-- R44, R66, R68: while a command is pending, any number of Host turns leave every register of the block as it is but
LOST. That the order of turns is a list, and each step takes its first, is the model's choice (log entry 6). -/
def Obligations.PendingCommandIsFrozen : Prop :=
  ∀ (n : Nat) (s t : State), s.busy = true → s.turns = List.replicate n .host →
    Host.Core.run core n s = .next t →
    t.turns = [] ∧ State.sameBlock { s with lost := t.lost } t ∧ t.freeCount = s.freeCount

/-- However many Host turns come first, the pending command then completes with the result it would have had at once:
the block's registers are those of its Complete step at issue, but for LOST (R44, R68, R72). That the step after them,
with no turn left in the list, is the Engine's is the model's choice (log entry 6, DESIGN CHOICE). -/
def Obligations.CompletionWaitsWithoutChange : Prop :=
  ∀ (n : Nat) (s u : State), s.busy = true → s.turns = List.replicate n .host →
    Host.Core.run core (n + 1) s = .next u →
    ∃ t : State, completeStep s = .next t ∧ State.sameBlock { t with lost := u.lost } u ∧ u.freeCount = t.freeCount

/-! ### The Host -/

/-- A step is refused exactly when it is the Host's turn and its line makes an access that is not 8 bytes wide or not at
a multiple of 8; a well-formed host program is never refused. That such an access is refused is R62. That nothing else
is, so that a step of a finished program or of the Engine with BUSY = 0 answers a next state, and whose turn it is, are
the model's choices (log entries 7 and 6, DESIGN CHOICE); that a line carries its access's width is log entry 8. -/
def Obligations.OnlyIllegalAccessIsRefused : Prop :=
  (∀ s : State, (∃ r : Refusal, step s = .refused r) ↔
    (s.agent = .host ∧ ∃ (off : Offset) (width : Nat), (width ≠ 8 ∨ off.toNat % 8 ≠ 0)
      ∧ ((∃ e : HostExpr, s.host.line = some (.wr off width e))
          ∨ ∃ x : Nat, s.host.line = some (.rd off width x))))
  ∧ ∀ s : State, hostProgramWf s.host.prog = true → ∃ t : State, step s = .next t

/-- R66, R96: `rd NAME -> x` leaves the block as it is, gives x the value read and no other variable a value, and goes
on to the next line. -/
def Obligations.HostReadHasNoSideEffect : Prop :=
  ∀ (s : State) (off : Offset) (x : Nat), off.toNat % 8 = 0 → s.host.line = some (.rd off 8 x) →
    ∃ t : State, hostTurn s = .next t ∧ t = { s with host := t.host }
      ∧ t.host.prog = s.host.prog ∧ t.host.pos = s.host.pos + 1
      ∧ ∀ y : Nat, t.host.get y = if y = x then s.hostRead off else s.host.get y

/-- R96: the lines of a host program that make no access leave the block as it is: `set` gives one variable a value,
`goto` and a taken branch go to their label, a branch not taken goes on. -/
def Obligations.HostControlLinesStayInHost : Prop :=
  ∀ s : State,
    (∀ (x : Nat) (e : HostExpr), s.host.line = some (.assign x e) →
      ∃ t : State, hostTurn s = .next t ∧ t = { s with host := t.host } ∧ t.host.pos = s.host.pos + 1
        ∧ ∀ y : Nat, t.host.get y = if y = x then e.eval s.host else s.host.get y)
    ∧ (∀ p : Nat, s.host.line = some (.jump p) →
      hostTurn s = .next { s with host := { s.host with pos := p } })
    ∧ ∀ (cmp : HostCmp) (a b : HostExpr) (p : Nat), s.host.line = some (.branch cmp a b p) →
      hostTurn s = .next { s with host := { s.host with
        pos := if (match cmp with
          | .eq => decide ((a.eval s.host).toNat = (b.eval s.host).toNat)
          | .ne => decide ((a.eval s.host).toNat ≠ (b.eval s.host).toNat)
          | .lt => decide ((a.eval s.host).toNat < (b.eval s.host).toNat)) then p else s.host.pos + 1 } }

/-- R97: one round of `wait`: two Host turns read STATUS into x and go back to the read exactly while BUSY = 1. -/
def Obligations.WaitLoopsWhileBusy : Prop :=
  ∀ (s : State) (before after : List HostStmt) (x : Nat),
    s.host.prog = before ++ waitLines before.length x ++ after → s.host.pos = before.length →
    s.turns = [.host, .host] →
    ∃ t : State, Host.Core.run core 2 s = .next t ∧ State.sameBlock s t ∧ t.freeCount = s.freeCount
      ∧ t.host.get x = s.hostRead 0x0008#16
      ∧ t.host.pos = if s.busy then before.length else before.length + 2

/-- `ldalpha` (R97), run on an idle block with no order of turns given, where each step is the Host's by the model's
choice (log entry 6), loads a string of at most ALPHA_MAX characters into ALPHA_STAGE and its
length into ALPHA_STAGE_LEN, and touches nothing else. -/
def Obligations.LdalphaLoadsAlphabet : Prop :=
  ∀ (s : State) (before after : List HostStmt) (cs : List CharCode),
    cs.length ≤ 256 → s.host.prog = before ++ ldalphaLines cs ++ after → s.host.pos = before.length →
    s.turns = [] → s.busy = false →
    ∃ t : State, Host.Core.run core (cs.length + 1) s = .next t
      ∧ t = { s with
          alphaStage := t.alphaStage, alphaStageLen := BitVec.ofNat 64 cs.length
          host := { s.host with pos := before.length + cs.length + 1 } }
      ∧ (∀ (i : Nat) (h : i < cs.length), t.alphaStage.read i = cs[i])
      ∧ ∀ i : Nat, cs.length ≤ i → t.alphaStage.read i = s.alphaStage.read i

/-- The boot sequence of R262 in the one order of turns that the model chooses when none is given (log entry 6, DESIGN
CHOICE), where the Complete step follows the write to CMD at once: on an idle block `ldalpha` of 2 to ALPHA_MAX distinct
characters and `run CODEC_NEW` commit that alphabet in n + 5 steps: ERR_CODE is 0, CODEC_VALID is 1, and the host
program goes on after the `wait`. In other orders the number of steps differs. -/
def Obligations.BootCommitsCodec : Prop :=
  ∀ (s : State) (after : List HostStmt) (cs : List CharCode) (x : Nat),
    2 ≤ cs.length → cs.length ≤ 256 → cs.Nodup →
    s.host.prog = ldalphaLines cs ++ runLines (cs.length + 1) x .codecNew ++ after → s.host.pos = 0 →
    s.turns = [] → s.busy = false →
    ∃ t : State, Host.Core.run core (cs.length + 5) s = .next t
      ∧ t.busy = false ∧ t.errCode = 0x00#8 ∧ t.codecValid = true ∧ t.alphabet = cs
      ∧ t.codecLen = BitVec.ofNat 64 cs.length ∧ t.host.pos = cs.length + 4

/-- R263, R78: a Host turn that keeps the duties never sets LOST. -/
def Obligations.DutifulHostLosesNoWrite : Prop :=
  ∀ s t : State, s.agent = .host → s.hostKeepsDuties = true → step s = .next t → t.lost = true → s.lost = true

/-- R79: at the end of a run, with no order of turns left, a step changes nothing. That such a step exists, and
that it is the Host's, is the model's choice (log entries 7 and 6). -/
def Obligations.RunOverStaysOver : Prop :=
  ∀ s : State, s.runOver = true → s.turns = [] → step s = .next s
end

