-- ==== Sys2Proof/Laws/State.lean ====
section
/-! SUPPORT. What each named update of State does to each field: one lemma per field per update, so that no later
proof unfolds a record update. -/
namespace Sys2Proof.Machine

section finish
variable (s : State) (c : Completion)

@[simp] theorem finish_cmd : (s.finish c).cmd = s.cmd := rfl
@[simp] theorem finish_busy : (s.finish c).busy = s.busy := rfl
@[simp] theorem finish_codecValid : (s.finish c).codecValid = s.codecValid := rfl
@[simp] theorem finish_lost : (s.finish c).lost = s.lost := rfl
@[simp] theorem finish_errCode : (s.finish c).errCode = c.code := rfl
@[simp] theorem finish_randMode : (s.finish c).randMode = s.randMode := rfl
@[simp] theorem finish_traceEn : (s.finish c).traceEn = s.traceEn := rfl
@[simp] theorem finish_key : (s.finish c).key = s.key := rfl
@[simp] theorem finish_opa : (s.finish c).opa = s.opa := rfl
@[simp] theorem finish_result : (s.finish c).result = s.result := rfl
@[simp] theorem finish_errInfo0 : (s.finish c).errInfo0 = c.info0 := rfl
@[simp] theorem finish_errInfo1 : (s.finish c).errInfo1 = c.info1 := rfl
@[simp] theorem finish_randOvr : (s.finish c).randOvr = s.randOvr := rfl
@[simp] theorem finish_alphaStageLen : (s.finish c).alphaStageLen = s.alphaStageLen := rfl
@[simp] theorem finish_codecLen : (s.finish c).codecLen = s.codecLen := rfl
@[simp] theorem finish_strLen : (s.finish c).strLen = s.strLen := rfl
@[simp] theorem finish_traceClass : (s.finish c).traceClass = s.traceClass := rfl
@[simp] theorem finish_traceS1 : (s.finish c).traceS1 = s.traceS1 := rfl
@[simp] theorem finish_traceS2 : (s.finish c).traceS2 = s.traceS2 := rfl
@[simp] theorem finish_traceFinal : (s.finish c).traceFinal = s.traceFinal := rfl
@[simp] theorem finish_alphaStage : (s.finish c).alphaStage = s.alphaStage := rfl
@[simp] theorem finish_codecTab : (s.finish c).codecTab = s.codecTab := rfl
@[simp] theorem finish_str : (s.finish c).str = s.str := rfl
@[simp] theorem finish_freeCount : (s.finish c).freeCount = s.freeCount := rfl
@[simp] theorem finish_host : (s.finish c).host = s.host := rfl
@[simp] theorem finish_turns : (s.finish c).turns = s.turns := rfl

end finish

section zeroKey
variable (s : State) (k : Bool)

@[simp] theorem zeroKey_cmd : (s.zeroKey k).cmd = s.cmd := rfl
@[simp] theorem zeroKey_busy : (s.zeroKey k).busy = s.busy := rfl
@[simp] theorem zeroKey_codecValid : (s.zeroKey k).codecValid = s.codecValid := rfl
@[simp] theorem zeroKey_lost : (s.zeroKey k).lost = s.lost := rfl
@[simp] theorem zeroKey_errCode : (s.zeroKey k).errCode = s.errCode := rfl
@[simp] theorem zeroKey_randMode : (s.zeroKey k).randMode = s.randMode := rfl
@[simp] theorem zeroKey_traceEn : (s.zeroKey k).traceEn = s.traceEn := rfl
@[simp] theorem zeroKey_key : (s.zeroKey k).key = if k then 0#64 else s.key := rfl
@[simp] theorem zeroKey_opa : (s.zeroKey k).opa = s.opa := rfl
@[simp] theorem zeroKey_result : (s.zeroKey k).result = s.result := rfl
@[simp] theorem zeroKey_errInfo0 : (s.zeroKey k).errInfo0 = s.errInfo0 := rfl
@[simp] theorem zeroKey_errInfo1 : (s.zeroKey k).errInfo1 = s.errInfo1 := rfl
@[simp] theorem zeroKey_randOvr : (s.zeroKey k).randOvr = s.randOvr := rfl
@[simp] theorem zeroKey_alphaStageLen : (s.zeroKey k).alphaStageLen = s.alphaStageLen := rfl
@[simp] theorem zeroKey_codecLen : (s.zeroKey k).codecLen = s.codecLen := rfl
@[simp] theorem zeroKey_strLen : (s.zeroKey k).strLen = s.strLen := rfl
@[simp] theorem zeroKey_traceClass : (s.zeroKey k).traceClass = s.traceClass := rfl
@[simp] theorem zeroKey_traceS1 : (s.zeroKey k).traceS1 = s.traceS1 := rfl
@[simp] theorem zeroKey_traceS2 : (s.zeroKey k).traceS2 = s.traceS2 := rfl
@[simp] theorem zeroKey_traceFinal : (s.zeroKey k).traceFinal = s.traceFinal := rfl
@[simp] theorem zeroKey_alphaStage : (s.zeroKey k).alphaStage = s.alphaStage := rfl
@[simp] theorem zeroKey_codecTab : (s.zeroKey k).codecTab = s.codecTab := rfl
@[simp] theorem zeroKey_str : (s.zeroKey k).str = s.str := rfl
@[simp] theorem zeroKey_freeCount : (s.zeroKey k).freeCount = s.freeCount := rfl
@[simp] theorem zeroKey_host : (s.zeroKey k).host = s.host := rfl
@[simp] theorem zeroKey_turns : (s.zeroKey k).turns = s.turns := rfl

end zeroKey

section endCommand
variable (s : State)

@[simp] theorem endCommand_cmd : s.endCommand.cmd = s.cmd := rfl
@[simp] theorem endCommand_busy : s.endCommand.busy = false := rfl
@[simp] theorem endCommand_codecValid : s.endCommand.codecValid = s.codecValid := rfl
@[simp] theorem endCommand_lost : s.endCommand.lost = s.lost := rfl
@[simp] theorem endCommand_errCode : s.endCommand.errCode = s.errCode := rfl
@[simp] theorem endCommand_randMode : s.endCommand.randMode = s.randMode := rfl
@[simp] theorem endCommand_traceEn : s.endCommand.traceEn = s.traceEn := rfl
@[simp] theorem endCommand_key : s.endCommand.key = s.key := rfl
@[simp] theorem endCommand_opa : s.endCommand.opa = s.opa := rfl
@[simp] theorem endCommand_result : s.endCommand.result = s.result := rfl
@[simp] theorem endCommand_errInfo0 : s.endCommand.errInfo0 = s.errInfo0 := rfl
@[simp] theorem endCommand_errInfo1 : s.endCommand.errInfo1 = s.errInfo1 := rfl
@[simp] theorem endCommand_randOvr : s.endCommand.randOvr = s.randOvr := rfl
@[simp] theorem endCommand_alphaStageLen : s.endCommand.alphaStageLen = s.alphaStageLen := rfl
@[simp] theorem endCommand_codecLen : s.endCommand.codecLen = s.codecLen := rfl
@[simp] theorem endCommand_strLen : s.endCommand.strLen = s.strLen := rfl
@[simp] theorem endCommand_traceClass : s.endCommand.traceClass = s.traceClass := rfl
@[simp] theorem endCommand_traceS1 : s.endCommand.traceS1 = s.traceS1 := rfl
@[simp] theorem endCommand_traceS2 : s.endCommand.traceS2 = s.traceS2 := rfl
@[simp] theorem endCommand_traceFinal : s.endCommand.traceFinal = s.traceFinal := rfl
@[simp] theorem endCommand_alphaStage : s.endCommand.alphaStage = s.alphaStage := rfl
@[simp] theorem endCommand_codecTab : s.endCommand.codecTab = s.codecTab := rfl
@[simp] theorem endCommand_str : s.endCommand.str = s.str := rfl
@[simp] theorem endCommand_freeCount : s.endCommand.freeCount = s.freeCount := rfl
@[simp] theorem endCommand_host : s.endCommand.host = s.host := rfl
@[simp] theorem endCommand_turns : s.endCommand.turns = s.turns := rfl

end endCommand

section complete
variable (s : State) (k : Bool) (c : Completion)

@[simp] theorem complete_cmd : (s.complete k c).cmd = s.cmd := rfl
@[simp] theorem complete_busy : (s.complete k c).busy = false := rfl
@[simp] theorem complete_codecValid : (s.complete k c).codecValid = s.codecValid := rfl
@[simp] theorem complete_lost : (s.complete k c).lost = s.lost := rfl
@[simp] theorem complete_errCode : (s.complete k c).errCode = c.code := rfl
@[simp] theorem complete_randMode : (s.complete k c).randMode = s.randMode := rfl
@[simp] theorem complete_traceEn : (s.complete k c).traceEn = s.traceEn := rfl
@[simp] theorem complete_key : (s.complete k c).key = if k then 0#64 else s.key := rfl
@[simp] theorem complete_opa : (s.complete k c).opa = s.opa := rfl
@[simp] theorem complete_result : (s.complete k c).result = s.result := rfl
@[simp] theorem complete_errInfo0 : (s.complete k c).errInfo0 = c.info0 := rfl
@[simp] theorem complete_errInfo1 : (s.complete k c).errInfo1 = c.info1 := rfl
@[simp] theorem complete_randOvr : (s.complete k c).randOvr = s.randOvr := rfl
@[simp] theorem complete_alphaStageLen : (s.complete k c).alphaStageLen = s.alphaStageLen := rfl
@[simp] theorem complete_codecLen : (s.complete k c).codecLen = s.codecLen := rfl
@[simp] theorem complete_strLen : (s.complete k c).strLen = s.strLen := rfl
@[simp] theorem complete_traceClass : (s.complete k c).traceClass = s.traceClass := rfl
@[simp] theorem complete_traceS1 : (s.complete k c).traceS1 = s.traceS1 := rfl
@[simp] theorem complete_traceS2 : (s.complete k c).traceS2 = s.traceS2 := rfl
@[simp] theorem complete_traceFinal : (s.complete k c).traceFinal = s.traceFinal := rfl
@[simp] theorem complete_alphaStage : (s.complete k c).alphaStage = s.alphaStage := rfl
@[simp] theorem complete_codecTab : (s.complete k c).codecTab = s.codecTab := rfl
@[simp] theorem complete_str : (s.complete k c).str = s.str := rfl
@[simp] theorem complete_freeCount : (s.complete k c).freeCount = s.freeCount := rfl
@[simp] theorem complete_host : (s.complete k c).host = s.host := rfl
@[simp] theorem complete_turns : (s.complete k c).turns = s.turns := rfl

end complete

section afterDraw
variable (s : State)

@[simp] theorem afterDraw_cmd : s.afterDraw.cmd = s.cmd := rfl
@[simp] theorem afterDraw_busy : s.afterDraw.busy = s.busy := rfl
@[simp] theorem afterDraw_codecValid : s.afterDraw.codecValid = s.codecValid := rfl
@[simp] theorem afterDraw_lost : s.afterDraw.lost = s.lost := rfl
@[simp] theorem afterDraw_errCode : s.afterDraw.errCode = s.errCode := rfl
@[simp] theorem afterDraw_randMode : s.afterDraw.randMode = s.randMode := rfl
@[simp] theorem afterDraw_traceEn : s.afterDraw.traceEn = s.traceEn := rfl
@[simp] theorem afterDraw_key : s.afterDraw.key = s.key := rfl
@[simp] theorem afterDraw_opa : s.afterDraw.opa = s.opa := rfl
@[simp] theorem afterDraw_result : s.afterDraw.result = s.result := rfl
@[simp] theorem afterDraw_errInfo0 : s.afterDraw.errInfo0 = s.errInfo0 := rfl
@[simp] theorem afterDraw_errInfo1 : s.afterDraw.errInfo1 = s.errInfo1 := rfl
@[simp] theorem afterDraw_randOvr : s.afterDraw.randOvr = s.randOvr := rfl
@[simp] theorem afterDraw_alphaStageLen : s.afterDraw.alphaStageLen = s.alphaStageLen := rfl
@[simp] theorem afterDraw_codecLen : s.afterDraw.codecLen = s.codecLen := rfl
@[simp] theorem afterDraw_strLen : s.afterDraw.strLen = s.strLen := rfl
@[simp] theorem afterDraw_traceClass : s.afterDraw.traceClass = s.traceClass := rfl
@[simp] theorem afterDraw_traceS1 : s.afterDraw.traceS1 = s.traceS1 := rfl
@[simp] theorem afterDraw_traceS2 : s.afterDraw.traceS2 = s.traceS2 := rfl
@[simp] theorem afterDraw_traceFinal : s.afterDraw.traceFinal = s.traceFinal := rfl
@[simp] theorem afterDraw_alphaStage : s.afterDraw.alphaStage = s.alphaStage := rfl
@[simp] theorem afterDraw_codecTab : s.afterDraw.codecTab = s.codecTab := rfl
@[simp] theorem afterDraw_str : s.afterDraw.str = s.str := rfl
@[simp] theorem afterDraw_freeCount : s.afterDraw.freeCount = if s.randMode then s.freeCount else s.freeCount + 1 := rfl
@[simp] theorem afterDraw_host : s.afterDraw.host = s.host := rfl
@[simp] theorem afterDraw_turns : s.afterDraw.turns = s.turns := rfl

end afterDraw

section traceMix
variable (s : State) (m : MixStages)

@[simp] theorem traceMix_cmd : (s.traceMix m).cmd = s.cmd := by
  unfold State.traceMix; split <;> rfl
@[simp] theorem traceMix_busy : (s.traceMix m).busy = s.busy := by
  unfold State.traceMix; split <;> rfl
@[simp] theorem traceMix_codecValid : (s.traceMix m).codecValid = s.codecValid := by
  unfold State.traceMix; split <;> rfl
@[simp] theorem traceMix_lost : (s.traceMix m).lost = s.lost := by
  unfold State.traceMix; split <;> rfl
@[simp] theorem traceMix_errCode : (s.traceMix m).errCode = s.errCode := by
  unfold State.traceMix; split <;> rfl
@[simp] theorem traceMix_randMode : (s.traceMix m).randMode = s.randMode := by
  unfold State.traceMix; split <;> rfl
@[simp] theorem traceMix_traceEn : (s.traceMix m).traceEn = s.traceEn := by
  unfold State.traceMix; split <;> rfl
@[simp] theorem traceMix_key : (s.traceMix m).key = s.key := by
  unfold State.traceMix; split <;> rfl
@[simp] theorem traceMix_opa : (s.traceMix m).opa = s.opa := by
  unfold State.traceMix; split <;> rfl
@[simp] theorem traceMix_result : (s.traceMix m).result = s.result := by
  unfold State.traceMix; split <;> rfl
@[simp] theorem traceMix_errInfo0 : (s.traceMix m).errInfo0 = s.errInfo0 := by
  unfold State.traceMix; split <;> rfl
@[simp] theorem traceMix_errInfo1 : (s.traceMix m).errInfo1 = s.errInfo1 := by
  unfold State.traceMix; split <;> rfl
@[simp] theorem traceMix_randOvr : (s.traceMix m).randOvr = s.randOvr := by
  unfold State.traceMix; split <;> rfl
@[simp] theorem traceMix_alphaStageLen : (s.traceMix m).alphaStageLen = s.alphaStageLen := by
  unfold State.traceMix; split <;> rfl
@[simp] theorem traceMix_codecLen : (s.traceMix m).codecLen = s.codecLen := by
  unfold State.traceMix; split <;> rfl
@[simp] theorem traceMix_strLen : (s.traceMix m).strLen = s.strLen := by
  unfold State.traceMix; split <;> rfl
@[simp] theorem traceMix_traceClass : (s.traceMix m).traceClass = if s.traceEn then m.cls.code else s.traceClass := by
  unfold State.traceMix; split <;> rfl
@[simp] theorem traceMix_traceS1 : (s.traceMix m).traceS1 = if s.traceEn then m.s1 else s.traceS1 := by
  unfold State.traceMix; split <;> rfl
@[simp] theorem traceMix_traceS2 : (s.traceMix m).traceS2 = if s.traceEn then m.s2 else s.traceS2 := by
  unfold State.traceMix; split <;> rfl
@[simp] theorem traceMix_traceFinal : (s.traceMix m).traceFinal = if s.traceEn then m.mixed else s.traceFinal := by
  unfold State.traceMix; split <;> rfl
@[simp] theorem traceMix_alphaStage : (s.traceMix m).alphaStage = s.alphaStage := by
  unfold State.traceMix; split <;> rfl
@[simp] theorem traceMix_codecTab : (s.traceMix m).codecTab = s.codecTab := by
  unfold State.traceMix; split <;> rfl
@[simp] theorem traceMix_str : (s.traceMix m).str = s.str := by
  unfold State.traceMix; split <;> rfl
@[simp] theorem traceMix_freeCount : (s.traceMix m).freeCount = s.freeCount := by
  unfold State.traceMix; split <;> rfl
@[simp] theorem traceMix_host : (s.traceMix m).host = s.host := by
  unfold State.traceMix; split <;> rfl
@[simp] theorem traceMix_turns : (s.traceMix m).turns = s.turns := by
  unfold State.traceMix; split <;> rfl

end traceMix

section traceUnmixEntry
variable (s : State) (m : Word)

@[simp] theorem traceUnmixEntry_cmd : (s.traceUnmixEntry m).cmd = s.cmd := by
  unfold State.traceUnmixEntry; split <;> rfl
@[simp] theorem traceUnmixEntry_busy : (s.traceUnmixEntry m).busy = s.busy := by
  unfold State.traceUnmixEntry; split <;> rfl
@[simp] theorem traceUnmixEntry_codecValid : (s.traceUnmixEntry m).codecValid = s.codecValid := by
  unfold State.traceUnmixEntry; split <;> rfl
@[simp] theorem traceUnmixEntry_lost : (s.traceUnmixEntry m).lost = s.lost := by
  unfold State.traceUnmixEntry; split <;> rfl
@[simp] theorem traceUnmixEntry_errCode : (s.traceUnmixEntry m).errCode = s.errCode := by
  unfold State.traceUnmixEntry; split <;> rfl
@[simp] theorem traceUnmixEntry_randMode : (s.traceUnmixEntry m).randMode = s.randMode := by
  unfold State.traceUnmixEntry; split <;> rfl
@[simp] theorem traceUnmixEntry_traceEn : (s.traceUnmixEntry m).traceEn = s.traceEn := by
  unfold State.traceUnmixEntry; split <;> rfl
@[simp] theorem traceUnmixEntry_key : (s.traceUnmixEntry m).key = s.key := by
  unfold State.traceUnmixEntry; split <;> rfl
@[simp] theorem traceUnmixEntry_opa : (s.traceUnmixEntry m).opa = s.opa := by
  unfold State.traceUnmixEntry; split <;> rfl
@[simp] theorem traceUnmixEntry_result : (s.traceUnmixEntry m).result = s.result := by
  unfold State.traceUnmixEntry; split <;> rfl
@[simp] theorem traceUnmixEntry_errInfo0 : (s.traceUnmixEntry m).errInfo0 = s.errInfo0 := by
  unfold State.traceUnmixEntry; split <;> rfl
@[simp] theorem traceUnmixEntry_errInfo1 : (s.traceUnmixEntry m).errInfo1 = s.errInfo1 := by
  unfold State.traceUnmixEntry; split <;> rfl
@[simp] theorem traceUnmixEntry_randOvr : (s.traceUnmixEntry m).randOvr = s.randOvr := by
  unfold State.traceUnmixEntry; split <;> rfl
@[simp] theorem traceUnmixEntry_alphaStageLen : (s.traceUnmixEntry m).alphaStageLen = s.alphaStageLen := by
  unfold State.traceUnmixEntry; split <;> rfl
@[simp] theorem traceUnmixEntry_codecLen : (s.traceUnmixEntry m).codecLen = s.codecLen := by
  unfold State.traceUnmixEntry; split <;> rfl
@[simp] theorem traceUnmixEntry_strLen : (s.traceUnmixEntry m).strLen = s.strLen := by
  unfold State.traceUnmixEntry; split <;> rfl
@[simp] theorem traceUnmixEntry_traceClass : (s.traceUnmixEntry m).traceClass = if s.traceEn then (unmixClass m).code else s.traceClass := by
  unfold State.traceUnmixEntry; split <;> rfl
@[simp] theorem traceUnmixEntry_traceS1 : (s.traceUnmixEntry m).traceS1 = if s.traceEn then unmixS2 m else s.traceS1 := by
  unfold State.traceUnmixEntry; split <;> rfl
@[simp] theorem traceUnmixEntry_traceS2 : (s.traceUnmixEntry m).traceS2 = s.traceS2 := by
  unfold State.traceUnmixEntry; split <;> rfl
@[simp] theorem traceUnmixEntry_traceFinal : (s.traceUnmixEntry m).traceFinal = s.traceFinal := by
  unfold State.traceUnmixEntry; split <;> rfl
@[simp] theorem traceUnmixEntry_alphaStage : (s.traceUnmixEntry m).alphaStage = s.alphaStage := by
  unfold State.traceUnmixEntry; split <;> rfl
@[simp] theorem traceUnmixEntry_codecTab : (s.traceUnmixEntry m).codecTab = s.codecTab := by
  unfold State.traceUnmixEntry; split <;> rfl
@[simp] theorem traceUnmixEntry_str : (s.traceUnmixEntry m).str = s.str := by
  unfold State.traceUnmixEntry; split <;> rfl
@[simp] theorem traceUnmixEntry_freeCount : (s.traceUnmixEntry m).freeCount = s.freeCount := by
  unfold State.traceUnmixEntry; split <;> rfl
@[simp] theorem traceUnmixEntry_host : (s.traceUnmixEntry m).host = s.host := by
  unfold State.traceUnmixEntry; split <;> rfl
@[simp] theorem traceUnmixEntry_turns : (s.traceUnmixEntry m).turns = s.turns := by
  unfold State.traceUnmixEntry; split <;> rfl

end traceUnmixEntry

section traceUnmixUnsalted
variable (s : State) (m : Word)

@[simp] theorem traceUnmixUnsalted_cmd : (s.traceUnmixUnsalted m).cmd = s.cmd := by
  unfold State.traceUnmixUnsalted; split <;> rfl
@[simp] theorem traceUnmixUnsalted_busy : (s.traceUnmixUnsalted m).busy = s.busy := by
  unfold State.traceUnmixUnsalted; split <;> rfl
@[simp] theorem traceUnmixUnsalted_codecValid : (s.traceUnmixUnsalted m).codecValid = s.codecValid := by
  unfold State.traceUnmixUnsalted; split <;> rfl
@[simp] theorem traceUnmixUnsalted_lost : (s.traceUnmixUnsalted m).lost = s.lost := by
  unfold State.traceUnmixUnsalted; split <;> rfl
@[simp] theorem traceUnmixUnsalted_errCode : (s.traceUnmixUnsalted m).errCode = s.errCode := by
  unfold State.traceUnmixUnsalted; split <;> rfl
@[simp] theorem traceUnmixUnsalted_randMode : (s.traceUnmixUnsalted m).randMode = s.randMode := by
  unfold State.traceUnmixUnsalted; split <;> rfl
@[simp] theorem traceUnmixUnsalted_traceEn : (s.traceUnmixUnsalted m).traceEn = s.traceEn := by
  unfold State.traceUnmixUnsalted; split <;> rfl
@[simp] theorem traceUnmixUnsalted_key : (s.traceUnmixUnsalted m).key = s.key := by
  unfold State.traceUnmixUnsalted; split <;> rfl
@[simp] theorem traceUnmixUnsalted_opa : (s.traceUnmixUnsalted m).opa = s.opa := by
  unfold State.traceUnmixUnsalted; split <;> rfl
@[simp] theorem traceUnmixUnsalted_result : (s.traceUnmixUnsalted m).result = s.result := by
  unfold State.traceUnmixUnsalted; split <;> rfl
@[simp] theorem traceUnmixUnsalted_errInfo0 : (s.traceUnmixUnsalted m).errInfo0 = s.errInfo0 := by
  unfold State.traceUnmixUnsalted; split <;> rfl
@[simp] theorem traceUnmixUnsalted_errInfo1 : (s.traceUnmixUnsalted m).errInfo1 = s.errInfo1 := by
  unfold State.traceUnmixUnsalted; split <;> rfl
@[simp] theorem traceUnmixUnsalted_randOvr : (s.traceUnmixUnsalted m).randOvr = s.randOvr := by
  unfold State.traceUnmixUnsalted; split <;> rfl
@[simp] theorem traceUnmixUnsalted_alphaStageLen : (s.traceUnmixUnsalted m).alphaStageLen = s.alphaStageLen := by
  unfold State.traceUnmixUnsalted; split <;> rfl
@[simp] theorem traceUnmixUnsalted_codecLen : (s.traceUnmixUnsalted m).codecLen = s.codecLen := by
  unfold State.traceUnmixUnsalted; split <;> rfl
@[simp] theorem traceUnmixUnsalted_strLen : (s.traceUnmixUnsalted m).strLen = s.strLen := by
  unfold State.traceUnmixUnsalted; split <;> rfl
@[simp] theorem traceUnmixUnsalted_traceClass : (s.traceUnmixUnsalted m).traceClass = s.traceClass := by
  unfold State.traceUnmixUnsalted; split <;> rfl
@[simp] theorem traceUnmixUnsalted_traceS1 : (s.traceUnmixUnsalted m).traceS1 = s.traceS1 := by
  unfold State.traceUnmixUnsalted; split <;> rfl
@[simp] theorem traceUnmixUnsalted_traceS2 : (s.traceUnmixUnsalted m).traceS2 = if s.traceEn then unmixUnsalted s.key m else s.traceS2 := by
  unfold State.traceUnmixUnsalted; split <;> rfl
@[simp] theorem traceUnmixUnsalted_traceFinal : (s.traceUnmixUnsalted m).traceFinal = s.traceFinal := by
  unfold State.traceUnmixUnsalted; split <;> rfl
@[simp] theorem traceUnmixUnsalted_alphaStage : (s.traceUnmixUnsalted m).alphaStage = s.alphaStage := by
  unfold State.traceUnmixUnsalted; split <;> rfl
@[simp] theorem traceUnmixUnsalted_codecTab : (s.traceUnmixUnsalted m).codecTab = s.codecTab := by
  unfold State.traceUnmixUnsalted; split <;> rfl
@[simp] theorem traceUnmixUnsalted_str : (s.traceUnmixUnsalted m).str = s.str := by
  unfold State.traceUnmixUnsalted; split <;> rfl
@[simp] theorem traceUnmixUnsalted_freeCount : (s.traceUnmixUnsalted m).freeCount = s.freeCount := by
  unfold State.traceUnmixUnsalted; split <;> rfl
@[simp] theorem traceUnmixUnsalted_host : (s.traceUnmixUnsalted m).host = s.host := by
  unfold State.traceUnmixUnsalted; split <;> rfl
@[simp] theorem traceUnmixUnsalted_turns : (s.traceUnmixUnsalted m).turns = s.turns := by
  unfold State.traceUnmixUnsalted; split <;> rfl

end traceUnmixUnsalted

section traceUnmixFinal
variable (s : State) (m : Word)

@[simp] theorem traceUnmixFinal_cmd : (s.traceUnmixFinal m).cmd = s.cmd := by
  unfold State.traceUnmixFinal; split <;> rfl
@[simp] theorem traceUnmixFinal_busy : (s.traceUnmixFinal m).busy = s.busy := by
  unfold State.traceUnmixFinal; split <;> rfl
@[simp] theorem traceUnmixFinal_codecValid : (s.traceUnmixFinal m).codecValid = s.codecValid := by
  unfold State.traceUnmixFinal; split <;> rfl
@[simp] theorem traceUnmixFinal_lost : (s.traceUnmixFinal m).lost = s.lost := by
  unfold State.traceUnmixFinal; split <;> rfl
@[simp] theorem traceUnmixFinal_errCode : (s.traceUnmixFinal m).errCode = s.errCode := by
  unfold State.traceUnmixFinal; split <;> rfl
@[simp] theorem traceUnmixFinal_randMode : (s.traceUnmixFinal m).randMode = s.randMode := by
  unfold State.traceUnmixFinal; split <;> rfl
@[simp] theorem traceUnmixFinal_traceEn : (s.traceUnmixFinal m).traceEn = s.traceEn := by
  unfold State.traceUnmixFinal; split <;> rfl
@[simp] theorem traceUnmixFinal_key : (s.traceUnmixFinal m).key = s.key := by
  unfold State.traceUnmixFinal; split <;> rfl
@[simp] theorem traceUnmixFinal_opa : (s.traceUnmixFinal m).opa = s.opa := by
  unfold State.traceUnmixFinal; split <;> rfl
@[simp] theorem traceUnmixFinal_result : (s.traceUnmixFinal m).result = s.result := by
  unfold State.traceUnmixFinal; split <;> rfl
@[simp] theorem traceUnmixFinal_errInfo0 : (s.traceUnmixFinal m).errInfo0 = s.errInfo0 := by
  unfold State.traceUnmixFinal; split <;> rfl
@[simp] theorem traceUnmixFinal_errInfo1 : (s.traceUnmixFinal m).errInfo1 = s.errInfo1 := by
  unfold State.traceUnmixFinal; split <;> rfl
@[simp] theorem traceUnmixFinal_randOvr : (s.traceUnmixFinal m).randOvr = s.randOvr := by
  unfold State.traceUnmixFinal; split <;> rfl
@[simp] theorem traceUnmixFinal_alphaStageLen : (s.traceUnmixFinal m).alphaStageLen = s.alphaStageLen := by
  unfold State.traceUnmixFinal; split <;> rfl
@[simp] theorem traceUnmixFinal_codecLen : (s.traceUnmixFinal m).codecLen = s.codecLen := by
  unfold State.traceUnmixFinal; split <;> rfl
@[simp] theorem traceUnmixFinal_strLen : (s.traceUnmixFinal m).strLen = s.strLen := by
  unfold State.traceUnmixFinal; split <;> rfl
@[simp] theorem traceUnmixFinal_traceClass : (s.traceUnmixFinal m).traceClass = s.traceClass := by
  unfold State.traceUnmixFinal; split <;> rfl
@[simp] theorem traceUnmixFinal_traceS1 : (s.traceUnmixFinal m).traceS1 = s.traceS1 := by
  unfold State.traceUnmixFinal; split <;> rfl
@[simp] theorem traceUnmixFinal_traceS2 : (s.traceUnmixFinal m).traceS2 = s.traceS2 := by
  unfold State.traceUnmixFinal; split <;> rfl
@[simp] theorem traceUnmixFinal_traceFinal : (s.traceUnmixFinal m).traceFinal = if s.traceEn then unmixId s.key m else s.traceFinal := by
  unfold State.traceUnmixFinal; split <;> rfl
@[simp] theorem traceUnmixFinal_alphaStage : (s.traceUnmixFinal m).alphaStage = s.alphaStage := by
  unfold State.traceUnmixFinal; split <;> rfl
@[simp] theorem traceUnmixFinal_codecTab : (s.traceUnmixFinal m).codecTab = s.codecTab := by
  unfold State.traceUnmixFinal; split <;> rfl
@[simp] theorem traceUnmixFinal_str : (s.traceUnmixFinal m).str = s.str := by
  unfold State.traceUnmixFinal; split <;> rfl
@[simp] theorem traceUnmixFinal_freeCount : (s.traceUnmixFinal m).freeCount = s.freeCount := by
  unfold State.traceUnmixFinal; split <;> rfl
@[simp] theorem traceUnmixFinal_host : (s.traceUnmixFinal m).host = s.host := by
  unfold State.traceUnmixFinal; split <;> rfl
@[simp] theorem traceUnmixFinal_turns : (s.traceUnmixFinal m).turns = s.turns := by
  unfold State.traceUnmixFinal; split <;> rfl

end traceUnmixFinal

section writeString
variable (s : State) (ds : List CharCode)

@[simp] theorem writeString_cmd : (s.writeString ds).cmd = s.cmd := rfl
@[simp] theorem writeString_busy : (s.writeString ds).busy = s.busy := rfl
@[simp] theorem writeString_codecValid : (s.writeString ds).codecValid = s.codecValid := rfl
@[simp] theorem writeString_lost : (s.writeString ds).lost = s.lost := rfl
@[simp] theorem writeString_errCode : (s.writeString ds).errCode = s.errCode := rfl
@[simp] theorem writeString_randMode : (s.writeString ds).randMode = s.randMode := rfl
@[simp] theorem writeString_traceEn : (s.writeString ds).traceEn = s.traceEn := rfl
@[simp] theorem writeString_key : (s.writeString ds).key = s.key := rfl
@[simp] theorem writeString_opa : (s.writeString ds).opa = s.opa := rfl
@[simp] theorem writeString_result : (s.writeString ds).result = s.result := rfl
@[simp] theorem writeString_errInfo0 : (s.writeString ds).errInfo0 = s.errInfo0 := rfl
@[simp] theorem writeString_errInfo1 : (s.writeString ds).errInfo1 = s.errInfo1 := rfl
@[simp] theorem writeString_randOvr : (s.writeString ds).randOvr = s.randOvr := rfl
@[simp] theorem writeString_alphaStageLen : (s.writeString ds).alphaStageLen = s.alphaStageLen := rfl
@[simp] theorem writeString_codecLen : (s.writeString ds).codecLen = s.codecLen := rfl
@[simp] theorem writeString_strLen : (s.writeString ds).strLen = BitVec.ofNat 64 ds.length := rfl
@[simp] theorem writeString_traceClass : (s.writeString ds).traceClass = s.traceClass := rfl
@[simp] theorem writeString_traceS1 : (s.writeString ds).traceS1 = s.traceS1 := rfl
@[simp] theorem writeString_traceS2 : (s.writeString ds).traceS2 = s.traceS2 := rfl
@[simp] theorem writeString_traceFinal : (s.writeString ds).traceFinal = s.traceFinal := rfl
@[simp] theorem writeString_alphaStage : (s.writeString ds).alphaStage = s.alphaStage := rfl
@[simp] theorem writeString_codecTab : (s.writeString ds).codecTab = s.codecTab := rfl
@[simp] theorem writeString_str : (s.writeString ds).str = s.str.writeFrom 0 ds := rfl
@[simp] theorem writeString_freeCount : (s.writeString ds).freeCount = s.freeCount := rfl
@[simp] theorem writeString_host : (s.writeString ds).host = s.host := rfl
@[simp] theorem writeString_turns : (s.writeString ds).turns = s.turns := rfl

end writeString

section commitCodec
variable (s : State)

@[simp] theorem commitCodec_cmd : s.commitCodec.cmd = s.cmd := rfl
@[simp] theorem commitCodec_busy : s.commitCodec.busy = s.busy := rfl
@[simp] theorem commitCodec_codecValid : s.commitCodec.codecValid = true := rfl
@[simp] theorem commitCodec_lost : s.commitCodec.lost = s.lost := rfl
@[simp] theorem commitCodec_errCode : s.commitCodec.errCode = s.errCode := rfl
@[simp] theorem commitCodec_randMode : s.commitCodec.randMode = s.randMode := rfl
@[simp] theorem commitCodec_traceEn : s.commitCodec.traceEn = s.traceEn := rfl
@[simp] theorem commitCodec_key : s.commitCodec.key = s.key := rfl
@[simp] theorem commitCodec_opa : s.commitCodec.opa = s.opa := rfl
@[simp] theorem commitCodec_result : s.commitCodec.result = s.result := rfl
@[simp] theorem commitCodec_errInfo0 : s.commitCodec.errInfo0 = s.errInfo0 := rfl
@[simp] theorem commitCodec_errInfo1 : s.commitCodec.errInfo1 = s.errInfo1 := rfl
@[simp] theorem commitCodec_randOvr : s.commitCodec.randOvr = s.randOvr := rfl
@[simp] theorem commitCodec_alphaStageLen : s.commitCodec.alphaStageLen = s.alphaStageLen := rfl
@[simp] theorem commitCodec_codecLen : s.commitCodec.codecLen = s.alphaStageLen := rfl
@[simp] theorem commitCodec_strLen : s.commitCodec.strLen = s.strLen := rfl
@[simp] theorem commitCodec_traceClass : s.commitCodec.traceClass = s.traceClass := rfl
@[simp] theorem commitCodec_traceS1 : s.commitCodec.traceS1 = s.traceS1 := rfl
@[simp] theorem commitCodec_traceS2 : s.commitCodec.traceS2 = s.traceS2 := rfl
@[simp] theorem commitCodec_traceFinal : s.commitCodec.traceFinal = s.traceFinal := rfl
@[simp] theorem commitCodec_alphaStage : s.commitCodec.alphaStage = s.alphaStage := rfl
@[simp] theorem commitCodec_codecTab : s.commitCodec.codecTab = Table.tabulate (fun i => if i < s.alphaStageLen.toNat then s.alphaStage.read i else Config.staleCodecTab s.freeCount i) 0 Config.alphaMax := rfl
@[simp] theorem commitCodec_str : s.commitCodec.str = s.str := rfl
@[simp] theorem commitCodec_freeCount : s.commitCodec.freeCount = s.freeCount + 1 := rfl
@[simp] theorem commitCodec_host : s.commitCodec.host = s.host := rfl
@[simp] theorem commitCodec_turns : s.commitCodec.turns = s.turns := rfl

end commitCodec

section issue
variable (s : State) (v : Word)

@[simp] theorem issue_cmd : (s.issue v).cmd = v := rfl
@[simp] theorem issue_busy : (s.issue v).busy = true := rfl
@[simp] theorem issue_codecValid : (s.issue v).codecValid = s.codecValid := rfl
@[simp] theorem issue_lost : (s.issue v).lost = s.lost := rfl
@[simp] theorem issue_errCode : (s.issue v).errCode = s.errCode := rfl
@[simp] theorem issue_randMode : (s.issue v).randMode = s.randMode := rfl
@[simp] theorem issue_traceEn : (s.issue v).traceEn = s.traceEn := rfl
@[simp] theorem issue_key : (s.issue v).key = s.key := rfl
@[simp] theorem issue_opa : (s.issue v).opa = s.opa := rfl
@[simp] theorem issue_result : (s.issue v).result = s.result := rfl
@[simp] theorem issue_errInfo0 : (s.issue v).errInfo0 = s.errInfo0 := rfl
@[simp] theorem issue_errInfo1 : (s.issue v).errInfo1 = s.errInfo1 := rfl
@[simp] theorem issue_randOvr : (s.issue v).randOvr = s.randOvr := rfl
@[simp] theorem issue_alphaStageLen : (s.issue v).alphaStageLen = s.alphaStageLen := rfl
@[simp] theorem issue_codecLen : (s.issue v).codecLen = s.codecLen := rfl
@[simp] theorem issue_strLen : (s.issue v).strLen = s.strLen := rfl
@[simp] theorem issue_traceClass : (s.issue v).traceClass = s.traceClass := rfl
@[simp] theorem issue_traceS1 : (s.issue v).traceS1 = s.traceS1 := rfl
@[simp] theorem issue_traceS2 : (s.issue v).traceS2 = s.traceS2 := rfl
@[simp] theorem issue_traceFinal : (s.issue v).traceFinal = s.traceFinal := rfl
@[simp] theorem issue_alphaStage : (s.issue v).alphaStage = s.alphaStage := rfl
@[simp] theorem issue_codecTab : (s.issue v).codecTab = s.codecTab := rfl
@[simp] theorem issue_str : (s.issue v).str = s.str := rfl
@[simp] theorem issue_freeCount : (s.issue v).freeCount = s.freeCount := rfl
@[simp] theorem issue_host : (s.issue v).host = s.host := rfl
@[simp] theorem issue_turns : (s.issue v).turns = s.turns := rfl

end issue

section writeStatus
variable (s : State) (v : Word)

@[simp] theorem writeStatus_cmd : (s.writeStatus v).cmd = s.cmd := rfl
@[simp] theorem writeStatus_busy : (s.writeStatus v).busy = s.busy := rfl
@[simp] theorem writeStatus_codecValid : (s.writeStatus v).codecValid = s.codecValid := rfl
@[simp] theorem writeStatus_lost : (s.writeStatus v).lost = (s.lost && !v.getLsbD 2) := rfl
@[simp] theorem writeStatus_errCode : (s.writeStatus v).errCode = s.errCode := rfl
@[simp] theorem writeStatus_randMode : (s.writeStatus v).randMode = s.randMode := rfl
@[simp] theorem writeStatus_traceEn : (s.writeStatus v).traceEn = s.traceEn := rfl
@[simp] theorem writeStatus_key : (s.writeStatus v).key = s.key := rfl
@[simp] theorem writeStatus_opa : (s.writeStatus v).opa = s.opa := rfl
@[simp] theorem writeStatus_result : (s.writeStatus v).result = s.result := rfl
@[simp] theorem writeStatus_errInfo0 : (s.writeStatus v).errInfo0 = s.errInfo0 := rfl
@[simp] theorem writeStatus_errInfo1 : (s.writeStatus v).errInfo1 = s.errInfo1 := rfl
@[simp] theorem writeStatus_randOvr : (s.writeStatus v).randOvr = s.randOvr := rfl
@[simp] theorem writeStatus_alphaStageLen : (s.writeStatus v).alphaStageLen = s.alphaStageLen := rfl
@[simp] theorem writeStatus_codecLen : (s.writeStatus v).codecLen = s.codecLen := rfl
@[simp] theorem writeStatus_strLen : (s.writeStatus v).strLen = s.strLen := rfl
@[simp] theorem writeStatus_traceClass : (s.writeStatus v).traceClass = s.traceClass := rfl
@[simp] theorem writeStatus_traceS1 : (s.writeStatus v).traceS1 = s.traceS1 := rfl
@[simp] theorem writeStatus_traceS2 : (s.writeStatus v).traceS2 = s.traceS2 := rfl
@[simp] theorem writeStatus_traceFinal : (s.writeStatus v).traceFinal = s.traceFinal := rfl
@[simp] theorem writeStatus_alphaStage : (s.writeStatus v).alphaStage = s.alphaStage := rfl
@[simp] theorem writeStatus_codecTab : (s.writeStatus v).codecTab = s.codecTab := rfl
@[simp] theorem writeStatus_str : (s.writeStatus v).str = s.str := rfl
@[simp] theorem writeStatus_freeCount : (s.writeStatus v).freeCount = s.freeCount := rfl
@[simp] theorem writeStatus_host : (s.writeStatus v).host = s.host := rfl
@[simp] theorem writeStatus_turns : (s.writeStatus v).turns = s.turns := rfl

end writeStatus

section popTurn
variable (s : State)

@[simp] theorem popTurn_cmd : s.popTurn.cmd = s.cmd := rfl
@[simp] theorem popTurn_busy : s.popTurn.busy = s.busy := rfl
@[simp] theorem popTurn_codecValid : s.popTurn.codecValid = s.codecValid := rfl
@[simp] theorem popTurn_lost : s.popTurn.lost = s.lost := rfl
@[simp] theorem popTurn_errCode : s.popTurn.errCode = s.errCode := rfl
@[simp] theorem popTurn_randMode : s.popTurn.randMode = s.randMode := rfl
@[simp] theorem popTurn_traceEn : s.popTurn.traceEn = s.traceEn := rfl
@[simp] theorem popTurn_key : s.popTurn.key = s.key := rfl
@[simp] theorem popTurn_opa : s.popTurn.opa = s.opa := rfl
@[simp] theorem popTurn_result : s.popTurn.result = s.result := rfl
@[simp] theorem popTurn_errInfo0 : s.popTurn.errInfo0 = s.errInfo0 := rfl
@[simp] theorem popTurn_errInfo1 : s.popTurn.errInfo1 = s.errInfo1 := rfl
@[simp] theorem popTurn_randOvr : s.popTurn.randOvr = s.randOvr := rfl
@[simp] theorem popTurn_alphaStageLen : s.popTurn.alphaStageLen = s.alphaStageLen := rfl
@[simp] theorem popTurn_codecLen : s.popTurn.codecLen = s.codecLen := rfl
@[simp] theorem popTurn_strLen : s.popTurn.strLen = s.strLen := rfl
@[simp] theorem popTurn_traceClass : s.popTurn.traceClass = s.traceClass := rfl
@[simp] theorem popTurn_traceS1 : s.popTurn.traceS1 = s.traceS1 := rfl
@[simp] theorem popTurn_traceS2 : s.popTurn.traceS2 = s.traceS2 := rfl
@[simp] theorem popTurn_traceFinal : s.popTurn.traceFinal = s.traceFinal := rfl
@[simp] theorem popTurn_alphaStage : s.popTurn.alphaStage = s.alphaStage := rfl
@[simp] theorem popTurn_codecTab : s.popTurn.codecTab = s.codecTab := rfl
@[simp] theorem popTurn_str : s.popTurn.str = s.str := rfl
@[simp] theorem popTurn_freeCount : s.popTurn.freeCount = s.freeCount := rfl
@[simp] theorem popTurn_host : s.popTurn.host = s.host := rfl
@[simp] theorem popTurn_turns : s.popTurn.turns = s.turns.tail := rfl

end popTurn

section resetEvent
variable (s : State)

@[simp] theorem resetEvent_cmd : s.resetEvent.cmd = 0#64 := rfl
@[simp] theorem resetEvent_busy : s.resetEvent.busy = false := rfl
@[simp] theorem resetEvent_codecValid : s.resetEvent.codecValid = false := rfl
@[simp] theorem resetEvent_lost : s.resetEvent.lost = false := rfl
@[simp] theorem resetEvent_errCode : s.resetEvent.errCode = 0#8 := rfl
@[simp] theorem resetEvent_randMode : s.resetEvent.randMode = false := rfl
@[simp] theorem resetEvent_traceEn : s.resetEvent.traceEn = false := rfl
@[simp] theorem resetEvent_key : s.resetEvent.key = 0#64 := rfl
@[simp] theorem resetEvent_opa : s.resetEvent.opa = 0#64 := rfl
@[simp] theorem resetEvent_result : s.resetEvent.result = 0#64 := rfl
@[simp] theorem resetEvent_errInfo0 : s.resetEvent.errInfo0 = 0#64 := rfl
@[simp] theorem resetEvent_errInfo1 : s.resetEvent.errInfo1 = 0#64 := rfl
@[simp] theorem resetEvent_randOvr : s.resetEvent.randOvr = 0#5 := rfl
@[simp] theorem resetEvent_alphaStageLen : s.resetEvent.alphaStageLen = 0#64 := rfl
@[simp] theorem resetEvent_codecLen : s.resetEvent.codecLen = 0#64 := rfl
@[simp] theorem resetEvent_strLen : s.resetEvent.strLen = 0#64 := rfl
@[simp] theorem resetEvent_traceClass : s.resetEvent.traceClass = 0#2 := rfl
@[simp] theorem resetEvent_traceS1 : s.resetEvent.traceS1 = 0#64 := rfl
@[simp] theorem resetEvent_traceS2 : s.resetEvent.traceS2 = 0#64 := rfl
@[simp] theorem resetEvent_traceFinal : s.resetEvent.traceFinal = 0#64 := rfl
@[simp] theorem resetEvent_alphaStage : s.resetEvent.alphaStage = Table.tabulate (Config.resetAlphaStage s.freeCount) 0 Config.alphaMax := rfl
@[simp] theorem resetEvent_codecTab : s.resetEvent.codecTab = Table.tabulate (Config.resetCodecTab s.freeCount) 0 Config.alphaMax := rfl
@[simp] theorem resetEvent_str : s.resetEvent.str = Table.tabulate (Config.resetStr s.freeCount) 0 Config.strMax := rfl
@[simp] theorem resetEvent_freeCount : s.resetEvent.freeCount = s.freeCount + 1 := rfl
@[simp] theorem resetEvent_host : s.resetEvent.host = s.host := rfl
@[simp] theorem resetEvent_turns : s.resetEvent.turns = s.turns := rfl

end resetEvent

end Sys2Proof.Machine
end

