-- ==== Sys2Proof/Laws/Tables.lean ====
section
/-! SUPPORT. The laws of keyed cells and tables: read after write, and that every operation keeps the canonical
form. -/
namespace Sys2Proof.Machine

section cells
variable {α : Type} (k j : Nat) (v : α) (cells : List (Nat × α))

@[simp] theorem cellAt_nil : cellAt k ([] : List (Nat × α)) = none := rfl

@[simp] theorem cellAt_cons (c : Nat × α) :
    cellAt k (c :: cells) = if c.1 = k then some c.2 else cellAt k cells := rfl

theorem cellAt_dropCell : cellAt j (dropCell k cells) = if j = k then none else cellAt j cells := by
  induction cells with
  | nil => simp [dropCell]
  | cons c rest ih =>
    unfold dropCell at ih ⊢
    by_cases hc : c.1 = k
    · rw [List.filter_cons_of_neg (by simp [hc]), ih]
      by_cases hj : j = k
      · simp [hj]
      · have : ¬ k = j := fun h => hj h.symm
        simp [hj, hc, this]
    · rw [List.filter_cons_of_pos (by simp [hc])]
      by_cases hj : j = k
      · have hcj : ¬ c.1 = j := fun h => hc (h.trans hj)
        rw [cellAt_cons, if_neg hcj, ih, if_pos hj, if_pos hj]
      · simp [ih, hj]

theorem cellAt_insertCell (h : cellAt k cells = none) :
    cellAt j (insertCell k v cells) = if j = k then some v else cellAt j cells := by
  induction cells with
  | nil => simp [insertCell, eq_comm]
  | cons c rest ih =>
    have hc : ¬ c.1 = k := by
      intro hk
      simp [hk] at h
    have hr : cellAt k rest = none := by simpa [hc] using h
    unfold insertCell
    by_cases hlt : k < c.1
    · simp [hlt, eq_comm]
    · simp only [hlt, if_false, cellAt_cons, ih hr]
      by_cases hj : j = k
      · subst hj
        simp [hc]
      · simp [hj]

theorem cellAt_putCell :
    cellAt j (putCell k v cells) = if j = k then some v else cellAt j cells := by
  unfold putCell
  rw [cellAt_insertCell k j v _ (by simp [cellAt_dropCell]), cellAt_dropCell]
  by_cases hj : j = k <;> simp [hj]

theorem mem_insertCell (c : Nat × α) :
    c ∈ insertCell k v cells ↔ c = (k, v) ∨ c ∈ cells := by
  induction cells with
  | nil => simp [insertCell]
  | cons d rest ih =>
    unfold insertCell
    by_cases hlt : k < d.1
    · simp [hlt]
    · simp only [hlt, if_false, List.mem_cons, ih]
      tauto

theorem mem_dropCell (c : Nat × α) : c ∈ dropCell k cells ↔ c ∈ cells ∧ c.1 ≠ k := by
  simp [dropCell]

/-- Keys strictly rising, as a relation between any two cells. -/
theorem cellsRising_iff_pairwise :
    cellsRising cells = true ↔ cells.Pairwise (fun c d => c.1 < d.1) := by
  induction cells with
  | nil => simp [cellsRising]
  | cons c rest ih => simp [cellsRising, ih]

theorem cellsRising_dropCell (h : cellsRising cells = true) : cellsRising (dropCell k cells) = true := by
  rw [cellsRising_iff_pairwise] at h ⊢
  exact h.filter _

theorem cellsRising_insertCell (h : cellsRising cells = true) (hk : ∀ c ∈ cells, c.1 ≠ k) :
    cellsRising (insertCell k v cells) = true := by
  rw [cellsRising_iff_pairwise] at h ⊢
  induction cells with
  | nil => simp [insertCell]
  | cons d rest ih =>
    obtain ⟨hd, hrest⟩ := List.pairwise_cons.mp h
    unfold insertCell
    by_cases hlt : k < d.1
    · simp only [hlt, if_true, List.pairwise_cons, List.mem_cons]
      refine ⟨?_, hd, hrest⟩
      rintro c (rfl | hc)
      · exact hlt
      · exact hlt.trans (hd c hc)
    · simp only [hlt, if_false, List.pairwise_cons]
      refine ⟨?_, ih hrest fun c hc => hk c (List.mem_cons_of_mem _ hc)⟩
      intro c hc
      rcases (mem_insertCell k v rest c).mp hc with rfl | hc
      · have := hk d List.mem_cons_self
        simp only
        omega
      · exact hd c hc

theorem cellsRising_putCell (h : cellsRising cells = true) : cellsRising (putCell k v cells) = true :=
  cellsRising_insertCell k v _ (cellsRising_dropCell k _ h)
    fun _ hc => ((mem_dropCell k cells _).mp hc).2

end cells

/-! ### Tables -/

theorem Table.wf_iff (size : Nat) (t : Table) :
    t.wf size = true ↔ cellsRising t = true ∧ ∀ c ∈ t, c.1 < size ∧ c.2 ≠ 0#32 := by
  simp [Table.wf]

@[simp] theorem Table.wf_nil (size : Nat) : Table.wf size [] = true := rfl

@[simp] theorem Table.read_nil (i : Nat) : Table.read [] i = 0#32 := rfl

/-- Read after write: the written entry reads the value, every other entry is left alone. -/
theorem Table.read_write (t : Table) (i j : Nat) (v : CharCode) :
    (t.write i v).read j = if j = i then v else t.read j := by
  unfold Table.write Table.read
  by_cases hv : v = 0#32
  · simp only [hv, if_true, cellAt_dropCell]
    by_cases hj : j = i <;> simp [hj]
  · simp only [hv, if_false, cellAt_putCell]
    by_cases hj : j = i <;> simp [hj]

/-- A write of any value below the table's size keeps the canonical form. -/
theorem Table.wf_write {size : Nat} {t : Table} (h : t.wf size = true) {i : Nat} (hi : i < size) (v : CharCode) :
    (t.write i v).wf size = true := by
  rw [Table.wf_iff] at h ⊢
  unfold Table.write
  by_cases hv : v = 0#32
  · simp only [hv, if_true]
    exact ⟨cellsRising_dropCell i _ h.1, fun c hc => h.2 c ((mem_dropCell i t c).mp hc).1⟩
  · simp only [hv, if_false]
    refine ⟨cellsRising_putCell i v _ h.1, fun c hc => ?_⟩
    rcases (mem_insertCell i v _ c).mp hc with rfl | hc
    · exact ⟨hi, hv⟩
    · exact h.2 c ((mem_dropCell i t c).mp hc).1

/-- Writing a string: entry j is the string's character where the string reaches it, else as before. -/
theorem Table.read_writeFrom (t : Table) (i j : Nat) (cs : List CharCode) :
    (t.writeFrom i cs).read j =
      if i ≤ j ∧ j < i + cs.length then cs.getD (j - i) 0#32 else t.read j := by
  induction cs generalizing t i with
  | nil =>
    have : ¬ (i ≤ j ∧ j < i + ([] : List CharCode).length) := by simp
    rw [if_neg this]
    rfl
  | cons c rest ih =>
    unfold Table.writeFrom
    rw [ih, Table.read_write]
    simp only [List.length_cons]
    by_cases hj : j = i
    · subst hj
      rw [if_neg (by omega), if_pos rfl, if_pos (by omega)]
      simp
    · by_cases hr : i + 1 ≤ j ∧ j < i + 1 + rest.length
      · rw [if_pos hr, if_pos (by omega)]
        obtain ⟨m, rfl⟩ : ∃ m, j = i + 1 + m := ⟨j - (i + 1), by omega⟩
        have h1 : i + 1 + m - (i + 1) = m := by omega
        have h2 : i + 1 + m - i = m + 1 := by omega
        rw [h1, h2]
        simp
      · rw [if_neg hr, if_neg hj, if_neg (by omega)]

theorem Table.wf_writeFrom {size : Nat} {t : Table} (h : t.wf size = true) (i : Nat) (cs : List CharCode)
    (hi : i + cs.length ≤ size) : (t.writeFrom i cs).wf size = true := by
  induction cs generalizing t i with
  | nil => exact h
  | cons c rest ih =>
    simp only [List.length_cons] at hi
    exact ih (Table.wf_write h (by omega) c) (i + 1) (by omega)

/-- A tabulated table: its entries are the function's values, all others read 0. -/
theorem Table.read_tabulate (f : Nat → CharCode) (lo n j : Nat) :
    (Table.tabulate f lo n).read j = if lo ≤ j ∧ j < lo + n then f j else 0#32 := by
  induction n generalizing lo j with
  | zero =>
    rw [if_neg (by omega)]
    rfl
  | succ n ih =>
    have hstep : (Table.tabulate f lo (n + 1)).read j =
        if lo = j then f lo else (Table.tabulate f (lo + 1) n).read j := by
      by_cases hf : f lo = 0#32
      · have hz : (Table.tabulate f (lo + 1) n).read lo = 0#32 := by
          rw [ih, if_neg (by omega)]
        simp only [Table.tabulate, hf, if_true]
        split
        · next h => rw [← h, hz]
        · rfl
      · simp only [Table.tabulate, hf, if_false, Table.read, cellAt_cons]
        by_cases hj : lo = j <;> simp [hj]
    rw [hstep, ih]
    by_cases hj : lo = j
    · subst hj
      simp
    · rw [if_neg hj]
      by_cases hr : lo + 1 ≤ j ∧ j < lo + 1 + n
      · rw [if_pos hr, if_pos (by omega)]
      · rw [if_neg hr, if_neg (by omega)]

theorem Table.mem_tabulate {f : Nat → CharCode} {lo n : Nat} {c : Nat × CharCode}
    (h : c ∈ Table.tabulate f lo n) : lo ≤ c.1 ∧ c.1 < lo + n ∧ c.2 ≠ 0#32 := by
  induction n generalizing lo with
  | zero => simp [Table.tabulate] at h
  | succ n ih =>
    unfold Table.tabulate at h
    split at h
    · have := ih h
      exact ⟨by omega, by omega, this.2.2⟩
    · next hf =>
      rcases List.mem_cons.mp h with rfl | h
      · exact ⟨le_refl _, by simp, hf⟩
      · have := ih h
        exact ⟨by omega, by omega, this.2.2⟩

theorem Table.wf_tabulate (f : Nat → CharCode) (lo n size : Nat) (h : lo + n ≤ size) :
    (Table.tabulate f lo n).wf size = true := by
  rw [Table.wf_iff]
  refine ⟨?_, fun c hc => ?_⟩
  · induction n generalizing lo with
    | zero => rfl
    | succ n ih =>
      have hrest := ih (lo + 1) (by omega)
      unfold Table.tabulate
      split
      · exact hrest
      · simp only [cellsRising, Bool.and_eq_true, List.all_eq_true, decide_eq_true_eq]
        refine ⟨fun d hd => ?_, hrest⟩
        have := Table.mem_tabulate hd
        omega
  · have := Table.mem_tabulate hc
    exact ⟨by omega, this.2.2⟩

@[simp] theorem Table.length_entries (t : Table) (n : Nat) : (t.entries n).length = n := by
  simp [Table.entries]

theorem Table.getElem_entries (t : Table) (n i : Nat) (h : i < (t.entries n).length) :
    (t.entries n)[i] = t.read i := by
  simp [Table.entries]

/-- Two tables in canonical form that read alike are the same data. -/
theorem Table.ext_read {size : Nat} {t u : Table} (ht : t.wf size = true) (hu : u.wf size = true)
    (h : ∀ i, t.read i = u.read i) : t = u := by
  rw [Table.wf_iff] at ht hu
  induction t generalizing u with
  | nil =>
    cases u with
    | nil => rfl
    | cons d us =>
      have h0 := h d.1
      simp [Table.read] at h0
      exact absurd h0.symm (hu.2 d List.mem_cons_self).2
  | cons c ts ih =>
    have hc := (ht.2 c List.mem_cons_self)
    cases u with
    | nil =>
      have h0 := h c.1
      simp [Table.read] at h0
      exact absurd h0 hc.2
    | cons d us =>
      have hd := (hu.2 d List.mem_cons_self)
      have htr := (cellsRising_iff_pairwise (c :: ts)).mp ht.1
      have hur := (cellsRising_iff_pairwise (d :: us)).mp hu.1
      have miss : ∀ (k : Nat) (l : List (Nat × CharCode)), (∀ x ∈ l, k < x.1) → cellAt k l = none := by
        intro k l
        induction l with
        | nil => simp
        | cons x xs ihx =>
          intro hx
          have hxk := hx x List.mem_cons_self
          have : ¬ x.1 = k := by omega
          simp only [cellAt_cons, this, if_false]
          exact ihx fun y hy => hx y (List.mem_cons_of_mem _ hy)
      have hct := (List.pairwise_cons.mp htr)
      have hdu := (List.pairwise_cons.mp hur)
      have hkey : c.1 = d.1 := by
        rcases Nat.lt_trichotomy c.1 d.1 with hlt | heq | hgt
        · have h0 := h c.1
          have hm : cellAt c.1 (d :: us) = none := by
            refine miss _ _ fun x hx => ?_
            rcases List.mem_cons.mp hx with rfl | hx
            · exact hlt
            · exact hlt.trans (hdu.1 x hx)
          simp [Table.read, hm] at h0
          exact absurd h0 hc.2
        · exact heq
        · have h0 := h d.1
          have hm : cellAt d.1 (c :: ts) = none := by
            refine miss _ _ fun x hx => ?_
            rcases List.mem_cons.mp hx with rfl | hx
            · exact hgt
            · exact hgt.trans (hct.1 x hx)
          simp [Table.read, hm] at h0
          exact absurd h0.symm hd.2
      have hval : c.2 = d.2 := by
        have h0 := h c.1
        simpa [Table.read, hkey] using h0
      have hcd : c = d := Prod.ext hkey hval
      subst hcd
      congr 1
      refine ih ⟨(cellsRising_iff_pairwise ts).mpr hct.2, fun x hx => ht.2 x (List.mem_cons_of_mem _ hx)⟩
        ⟨(cellsRising_iff_pairwise us).mpr hdu.2, fun x hx => hu.2 x (List.mem_cons_of_mem _ hx)⟩ fun i => ?_
      by_cases hi : c.1 = i
      · subst hi
        simp [Table.read, miss _ _ hct.1, miss _ _ hdu.1]
      · have h0 := h i
        simpa [Table.read, hi] using h0

end Sys2Proof.Machine
end

