-- ==== Sys2Proof/Laws/Commands.lean ====
section
/-! SUPPORT. What each shared operation can do, said once: the stages of the commands, the Complete step of each
command, and one step of the machine. -/
namespace Sys2Proof.Machine

/-- The pseudocode each command runs. -/
def commandEnd : Instr → State → CommandEnd
  | .mix, s => mixCommand s
  | .unmix, s => unmixCommand s
  | .classify, s => classifyCommand s
  | .codecNew, s => codecNewCommand s
  | .codecEncode, s => codecEncodeCommand s
  | .codecDecode, s => codecDecodeCommand s
  | .encode, s => encodeCommand s
  | .decode, s => decodeCommand s

/-- A command's Complete step is its pseudocode followed by the completion (R93): it always answers a next state. -/
theorem exec_eq (i : Instr) (s : State) :
    exec i s = .next ((commandEnd i s).1.complete i.keyed (commandEnd i s).2) := by
  cases i <;> rfl

/-- What the mix stage can do (R123). -/
theorem mixStage_cases (s : State) :
    (Config.maxU56 < s.opa ∧ mixStage s = (s, .error (.domain s.opa)))
    ∨ (s.opa ≤ Config.maxU56
        ∧ mixStage s = (s.afterDraw.traceMix (mixCore s.key s.opa s.randDraw),
            .ok (mixCore s.key s.opa s.randDraw).mixed)) := by
  unfold mixStage
  by_cases h : Config.maxU56 < s.opa
  · exact .inl ⟨h, by simp [h]⟩
  · exact .inr ⟨BitVec.not_lt.mp h, by simp [h]⟩

/-- What the unmix stage can do (R127, R130). -/
theorem unmixStage_cases (s : State) (m : Word) :
    (saltCheck m = false ∧ unmixStage s m = (s.traceUnmixEntry m, .error (.checksumRandsalt m)))
    ∨ (saltCheck m = true ∧ keyCheck s.key m = false
        ∧ unmixStage s m = ((s.traceUnmixEntry m).traceUnmixUnsalted m, .error (.checksumKey m)))
    ∨ (saltCheck m = true ∧ keyCheck s.key m = true
        ∧ unmixStage s m =
          (((s.traceUnmixEntry m).traceUnmixUnsalted m).traceUnmixFinal m, .ok (unmixId s.key m))) := by
  unfold unmixStage
  cases hs : saltCheck m <;> cases hk : keyCheck s.key m <;> simp

/-- What CODEC_NEW can do (R161). -/
theorem codecNewCommand_cases (s : State) :
    (Config.alphaMax < s.alphaStageLen.toNat ∧ codecNewCommand s = (s, .alphabetTooLong s.alphaStageLen))
    ∨ (s.alphaStageLen.toNat ≤ Config.alphaMax ∧ ∃ j c, firstRepeat [] 0 s.candidate = some (j, c)
        ∧ codecNewCommand s = (s, .duplicateChar j c))
    ∨ (s.alphaStageLen.toNat < 2 ∧ firstRepeat [] 0 s.candidate = none
        ∧ codecNewCommand s = (s, .alphabetTooShort s.alphaStageLen))
    ∨ (2 ≤ s.alphaStageLen.toNat ∧ s.alphaStageLen.toNat ≤ Config.alphaMax
        ∧ firstRepeat [] 0 s.candidate = none ∧ codecNewCommand s = (s.commitCodec, .ok)) := by
  unfold codecNewCommand
  by_cases hmax : Config.alphaMax < s.alphaStageLen.toNat
  · exact .inl ⟨hmax, by simp [hmax]⟩
  · right
    have hle := Nat.le_of_not_lt hmax
    rcases hf : firstRepeat [] 0 s.candidate with _ | ⟨j, c⟩
    · right
      by_cases h2 : s.alphaStageLen.toNat < 2
      · exact .inl ⟨h2, rfl, by simp [hmax, h2]⟩
      · exact .inr ⟨Nat.le_of_not_lt h2, hle, rfl, by simp [hmax, h2]⟩
    · exact .inl ⟨hle, j, c, rfl, by simp [hmax]⟩

/-- What the codec stage of a decode can do (R165, R201). -/
theorem decodeStage_cases (s : State) :
    (s.codecValid = false ∧ s.decodeStage = .error .noCodec)
    ∨ (s.codecValid = true ∧ Config.strMax < s.strLen.toNat ∧ s.decodeStage = .error (.stringTooLong s.strLen))
    ∨ (s.codecValid = true ∧ s.strLen.toNat ≤ Config.strMax ∧ s.decodeStage = decodeString s.alphabet s.string) := by
  unfold State.decodeStage State.decodeValue
  cases hv : s.codecValid
  · exact .inl ⟨rfl, rfl⟩
  · right
    by_cases hl : Config.strMax < s.strLen.toNat
    · exact .inl ⟨rfl, hl, by simp [hl]⟩
    · exact .inr ⟨rfl, Nat.le_of_not_lt hl, by simp [hl]⟩

/-- What the Complete step can do (R93, R94). -/
theorem completeStep_cases (s : State) :
    (∃ i, Sys2Proof.decode s.cmd = .ok i ∧ completeStep s = exec i s)
    ∨ (∃ e, Sys2Proof.decode s.cmd = .error e
        ∧ completeStep s = .next (s.complete false (.illegalCmd s.cmd))) := by
  unfold completeStep
  cases h : Sys2Proof.decode s.cmd with
  | ok i => exact .inl ⟨i, rfl, rfl⟩
  | error e => exact .inr ⟨e, rfl, rfl⟩

/-- A host variable after an assignment to one: that one has the value given, every other is left alone (R96). -/
theorem HostSide.get_set (h : HostSide) (x y : Nat) (v : Word) :
    (h.set x v).get y = if y = x then v else h.get y := by
  unfold HostSide.get HostSide.set
  rw [cellAt_putCell]
  by_cases hy : y = x <;> simp [hy]

/-- What one turn of the Host can do when it answers a next state (R96): at the end of its program nothing; a write;
or a change of the Host alone. -/
theorem hostTurn_cases {s t : State} (h : hostTurn s = .next t) :
    (s.host.line = none ∧ t = s)
    ∨ (∃ off width e, s.host.line = some (.wr off width e) ∧ accessLegal off width = true
        ∧ t = { s.hostWrite off (e.eval s.host) with host := s.host.advance })
    ∨ (∃ off width x, s.host.line = some (.rd off width x) ∧ accessLegal off width = true
        ∧ t = { s with host := (s.host.set x (s.hostRead off)).advance })
    ∨ ((∀ off width e, s.host.line ≠ some (.wr off width e)) ∧ ∃ hs, t = { s with host := hs }) := by
  unfold hostTurn at h
  split at h
  · next hl => exact .inl ⟨hl, (Host.Outcome.next.inj h).symm⟩
  · next off width e hl =>
    split at h
    · next ha => exact .inr (.inl ⟨off, width, e, hl, ha, (Host.Outcome.next.inj h).symm⟩)
    · cases h
  · next off width x hl =>
    split at h
    · next ha => exact .inr (.inr (.inl ⟨off, width, x, hl, ha, (Host.Outcome.next.inj h).symm⟩))
    · cases h
  · next hl => exact .inr (.inr (.inr ⟨by simp [hl], _, (Host.Outcome.next.inj h).symm⟩))
  · next hl => exact .inr (.inr (.inr ⟨by simp [hl], _, (Host.Outcome.next.inj h).symm⟩))
  · next hl => exact .inr (.inr (.inr ⟨by simp [hl], _, (Host.Outcome.next.inj h).symm⟩))

/-- What a HostWrite can do (R67-R69). -/
theorem hostWrite_cases (s : State) (off : Offset) (v : Word) :
    (regAt off = .status ∧ s.hostWrite off v = s.writeStatus v)
    ∨ (regAt off ≠ .status ∧ s.busy = true ∧ s.hostWrite off v = { s with lost := true })
    ∨ (regAt off ≠ .status ∧ s.busy = false ∧ s.hostWrite off v = s.writeReg (regAt off) v) := by
  unfold State.hostWrite
  by_cases hr : regAt off = .status
  · exact .inl ⟨hr, by simp [hr]⟩
  · right
    cases hb : s.busy
    · exact .inr ⟨hr, rfl, by simp [hr]⟩
    · exact .inl ⟨hr, rfl, by simp [hr]⟩

/-- A step is a turn of the agent next in the order. -/
theorem step_eq (s : State) : step s = agentTurn s.agent s.popTurn := rfl

/-- What a step can do (R7, R8): a Host turn, an Engine turn or the Reset event. -/
theorem step_cases {s t : State} (h : step s = .next t) :
    (s.agent = .host ∧ hostTurn s.popTurn = .next t)
    ∨ (s.agent = .engine ∧ s.busy = false ∧ t = s.popTurn)
    ∨ (s.agent = .engine ∧ s.busy = true ∧ completeStep s.popTurn = .next t)
    ∨ (s.agent = .reset ∧ t = s.popTurn.resetEvent) := by
  rw [step_eq] at h
  cases ha : s.agent <;> rw [ha] at h
  · exact .inl ⟨rfl, h⟩
  · simp only [agentTurn, engineTurn, popTurn_busy] at h
    cases hb : s.busy
    · simp only [hb] at h
      exact .inr (.inl ⟨rfl, rfl, (Host.Outcome.next.inj h).symm⟩)
    · simp only [hb] at h
      exact .inr (.inr (.inl ⟨rfl, rfl, h⟩))
  · exact .inr (.inr (.inr ⟨rfl, (Host.Outcome.next.inj h).symm⟩))

/-- A run of k + 1 steps whose first step answers a next state goes on from there. -/
theorem run_succ_next {s t : State} (k : Nat) (h : step s = .next t) :
    Host.Core.run core (k + 1) s = Host.Core.run core k t := by
  have hs : core.step s = .next t := h
  simp only [Host.Core.run, hs]

/-- A run of k + 1 steps that answers a next state took a first step, and the rest of it goes on from there. -/
theorem run_succ_cases {s u : State} {k : Nat} (h : Host.Core.run core (k + 1) s = .next u) :
    ∃ t : State, step s = .next t ∧ Host.Core.run core k t = .next u := by
  cases hs : step s with
  | next t => exact ⟨t, rfl, by rw [← run_succ_next k hs, h]⟩
  | fault f => cases f
  | refused r =>
    have hc : core.step s = .refused r := hs
    simp only [Host.Core.run, hc] at h
    cases h

end Sys2Proof.Machine
end

