-- ==== Sys2Proof/Laws/PerInstr.lean ====
section
/-! SUPPORT. What holds of each command as syntax, one lemma per constructor: its word has the format of R90, is
well-formed, and decodes to it (30_encoding.md R90, R92, R95, R98). -/
namespace Sys2Proof.Laws.CommandWord

/-- The command's word is its opcode in bits 7:0 and zeros above, it is well-formed, the decoder reads the command back
from it, and the command is keyed exactly when it is one of the four of R98. -/
def Statement (i : Sys2Proof.Instr) : Prop :=
  (Sys2Proof.encode i).toNat = i.opcode.toNat
    ∧ i.wf = true
    ∧ Sys2Proof.decode (Sys2Proof.encode i) = .ok i
    ∧ (i.keyed = true ↔ i ∈ [Instr.mix, .unmix, .encode, .decode])

theorem mix : Statement .mix := by unfold Statement; decide

theorem unmix : Statement .unmix := by unfold Statement; decide

theorem classify : Statement .classify := by unfold Statement; decide

theorem codecNew : Statement .codecNew := by unfold Statement; decide

theorem codecEncode : Statement .codecEncode := by unfold Statement; decide

theorem codecDecode : Statement .codecDecode := by unfold Statement; decide

theorem encode : Statement .encode := by unfold Statement; decide

theorem decode : Statement .decode := by unfold Statement; decide

end Sys2Proof.Laws.CommandWord
end

