-- ==== Sys2Proof/Tests/Slice0.lean ====
section
/-! SUPPORT. Small tests of the model, one step each, with expected values from spec/95_test_vectors.md (its row is
named in each comment), and for every statement with hypotheses a witness that meets them. -/
namespace Sys2Proof.Tests

open Sys2Proof Sys2Proof.Machine

/-! ### Small states -/

/-- The reference key K of 95_test_vectors.md. -/
def keyK : Word := 0x0123456789ABCDEF#64

/-- The key KS of 95_test_vectors.md. -/
def keyKS : Word := 0x002BDC54610FB9C8#64

/-- The outcome is a next state with a property. -/
def nextHas (o : Host.Outcome State Fault Refusal) (p : State → Bool) : Bool :=
  match o with
  | .next t => p t
  | .fault _ => false
  | .refused _ => false

/-- The outcome is a refusal. -/
def isRefused (o : Host.Outcome State Fault Refusal) : Bool :=
  match o with
  | .next _ => false
  | .fault _ => false
  | .refused _ => true

/-- An idle block with a key and an operand, the nonce fixed by RAND_OVR. -/
def mixer (key opa : Word) (rand : BitVec 5) : State :=
  { State.reset with key := key, opa := opa, randOvr := rand, randMode := true, result := 0x77#64 }

/-- A table holding some codes from entry 0 on. -/
def tableOf (cs : List CharCode) : Table := Table.writeFrom [] 0 cs

/-- The characters of HEX. -/
def hexChars : List CharCode :=
  [0x30#32, 0x31#32, 0x32#32, 0x33#32, 0x34#32, 0x35#32, 0x36#32, 0x37#32]
    ++ [0x38#32, 0x39#32, 0x61#32, 0x62#32, 0x63#32, 0x64#32, 0x65#32, 0x66#32]

/-- A block with a committed codec. -/
def withCodec (cs : List CharCode) (s : State) : State :=
  { s with codecTab := tableOf cs, codecLen := BitVec.ofNat 64 cs.length, codecValid := true }

/-- A block with a string in STR. -/
def withString (cs : List CharCode) (s : State) : State :=
  { s with str := tableOf cs, strLen := BitVec.ofNat 64 cs.length }

/-- A block with a candidate alphabet. -/
def withStage (cs : List CharCode) (s : State) : State :=
  { s with alphaStage := tableOf cs, alphaStageLen := BitVec.ofNat 64 cs.length }

/-- An idle block with the HEX codec. -/
def hex : State := withCodec hexChars State.reset

/-- An idle block with the codec "ab". -/
def ab : State := withCodec [0x61#32, 0x62#32] State.reset

/-- A block with a command pending. -/
def pending (i : Instr) (s : State) : State := { s with cmd := Sys2Proof.encode i, busy := true }

/-- A block whose host program is at its first line. -/
def withHost (prog : List HostStmt) (s : State) : State := { s with host := ⟨prog, 0, []⟩ }

/-! ### Decoding: words written out from R90 and the map of R92 -/

/-- MIX, OPC 0x01: bit 0. -/
theorem test_decode_mix : Sys2Proof.decode 0b00000001#64 = .ok .mix := by decide

/-- CLASSIFY, OPC 0x03: bits 1 and 0. -/
theorem test_decode_classify : Sys2Proof.decode 0b00000011#64 = .ok .classify := by decide

/-- CODEC_DECODE, OPC 0x12: bits 4 and 1. -/
theorem test_decode_codecDecode : Sys2Proof.decode 0b00010010#64 = .ok .codecDecode := by decide

/-- DECODE, OPC 0x21: bits 5 and 0, as the eight bytes of the access (R63). -/
theorem test_decode_decode_bytes :
    decodeBytes [0b00100001#8, 0#8, 0#8, 0#8, 0#8, 0#8, 0#8, 0#8] = .ok (.decode, []) := by decide

/-- Each constructor's word, in the order of the opcode table. -/
theorem test_decode_table_rows :
    decodeTableWord 64 0x01 = some .mix ∧ decodeTableWord 64 0x02 = some .unmix
      ∧ decodeTableWord 64 0x03 = some .classify ∧ decodeTableWord 64 0x10 = some .codecNew
      ∧ decodeTableWord 64 0x11 = some .codecEncode ∧ decodeTableWord 64 0x12 = some .codecDecode
      ∧ decodeTableWord 64 0x20 = some .encode ∧ decodeTableWord 64 0x21 = some .decode := by decide

/-- The illegal words of 95_test_vectors.md. -/
theorem test_decode_illegal :
    decodeTableWord 64 0x0 = none ∧ decodeTableWord 64 0x04 = none ∧ decodeTableWord 64 0xFF = none
      ∧ decodeTableWord 64 0x101 = none ∧ decodeTableWord 64 0x8000000000000001 = none := by decide

/-- Too few bytes for a command word. -/
theorem test_decode_truncated : decodeBytes [0x01#8] = .error .truncated := by decide

/-- Each row runs as the first step after its word is placed: the code it completes with on an otherwise reset block
(R125, R129, R115, R161, R164, R166, R200, R201). -/
theorem test_rows_run_first :
    [(0x01, 0x00#8), (0x02, 0x00#8), (0x03, 0x00#8), (0x10, 0x03#8), (0x11, 0x11#8), (0x12, 0x11#8),
      (0x20, 0x11#8), (0x21, 0x11#8)].all
      (fun r => nextHas (step (State.reset.withFetchWord 64 r.1)) (fun t => t.errCode == r.2 && !t.busy)) = true := by
  decide

/-! ### WellFormed: each check refuses an ill-formed term -/

theorem test_wf_legal_word : commandWordWf 0x21#64 = true := by decide

theorem test_wf_reserved_bit_refused : commandWordWf 0x101#64 = false := by decide

theorem test_wf_unassigned_opcode_refused : commandWordWf 0x04#64 = false := by decide

theorem test_wf_access_width_refused : accessWf 0x0020#16 4 = false := by decide

theorem test_wf_access_alignment_refused : accessWf 0x0004#16 8 = false := by decide

theorem test_wf_access_unmapped_refused : accessWf 0x0088#16 8 = false := by decide

theorem test_wf_write_value_refused :
    HostStmt.wf 1 (.wr 0x0028#16 8 (.add (.var 0) (.lit 1#64))) = false := by decide

theorem test_wf_read_refused : HostStmt.wf 1 (.rd 0x0028#16 2 0) = false := by decide

theorem test_wf_cond_operand_refused :
    HostStmt.wf 1 (.branch .eq (.bits 0 0 1) (.lit 1#64) 0) = false
      ∧ HostStmt.wf 1 (.branch .eq (.bits 0 64 0) (.lit 1#64) 0) = false
      ∧ HostStmt.wf 1 (.branch .eq (.lit 1#64) (.sub (.var 0) (.var 1)) 0) = false := by decide

theorem test_wf_label_refused :
    HostStmt.wf 1 (.jump 2) = false ∧ HostStmt.wf 1 (.branch .lt (.var 0) (.lit 1#64) 2) = false
      ∧ HostStmt.wf 1 (.jump 1) = true := by decide

theorem test_wf_set_expression_refused : HostStmt.wf 1 (.assign 0 (.add (.bits 0 3 0) (.lit 1#64))) = false := by decide

theorem test_wf_program_accepted :
    hostProgramWf (ldalphaLines [0x61#32, 0x62#32] ++ runLines 3 0 .codecNew ++ clrlostLines) = true := by decide

/-! ### Commands -/

/-- M8: the pad path, with its trace points (R123, R126). -/
theorem test_mix_pads :
    nextHas (exec .mix { mixer keyK 0x1ABCD#64 1#5 with traceEn := true }) (fun t =>
      t.result == 0x1ABCD0E#64 && t.key == 0#64 && t.errCode == 0x00#8 && t.traceClass == 1#2
        && t.traceS1 == 0x89AA6622#64 && t.traceS2 == 0x1ABCD#64 && t.traceFinal == 0x1ABCD0E#64) = true := by decide

/-- M12: the largest id. -/
theorem test_mix_largest_id :
    nextHas (exec .mix (mixer keyK 0x00FFFFFFFFFFFFFF#64 31#5)) (fun t => t.result == 0xFFFFE0FFFFFFFFFB#64) = true := by
  decide

/-- UM6: a padded Large value. -/
theorem test_unmix_unpads :
    nextHas (exec .unmix (mixer keyK 0x112345678FF#64 0#5)) (fun t =>
      t.result == 0x1F12345678#64 && t.key == 0#64 && t.errCode == 0x00#8) = true := by decide

/-- UM16 and UM20: paddingFlag with a Small class masks nothing; with a Large class it masks to 32 bits. -/
theorem test_unmix_pad_corners :
    nextHas (exec .unmix (mixer 0#64 0x4#64 0#5)) (fun t => t.result == 0#64 && t.errCode == 0x00#8) = true
      ∧ nextHas (exec .unmix (mixer keyK 0x0123456789ABCD07#64 0#5)) (fun t =>
        t.errCode == 0x06#8 && t.errInfo0 == 0x0123456789ABCD07#64 && t.result == 0x77#64) = true := by decide

/-- CLASSIFY: both sides of each threshold. -/
theorem test_classify_thresholds :
    [(0xFFFF#64, 0x00081000#64), (0x10000#64, 0x00102001#64), (0xFFFFFFFF#64, 0x00102001#64),
      (0x100000000#64, 0x00203802#64), (0xFFFFFFFFFFFFFFFF#64, 0x00203802#64)].all
      (fun r => nextHas (exec .classify (mixer 5#64 r.1 0#5)) (fun t => t.result == r.2 && t.key == 5#64)) = true := by
  decide

/-- CODEC_NEW "abcb": the second occurrence is reported. -/
theorem test_codecNew_duplicate :
    nextHas (exec .codecNew (withStage [0x61#32, 0x62#32, 0x63#32, 0x62#32] hex)) (fun t =>
      t.errCode == 0x02#8 && t.errInfo0 == 3#64 && t.errInfo1 == 0x62#64 && t.codecLen == 16#64) = true := by decide

/-- CODEC_NEW "ab", and the codes 0x0, 0xFFFF_FFFF. -/
theorem test_codecNew_commits :
    nextHas (exec .codecNew (withStage [0x61#32, 0x62#32] State.reset)) (fun t =>
      t.statusWord == 0x2#64 && t.codecLen == 2#64 && t.hostRead 0x2000#16 == 0x61#64) = true
    ∧ nextHas (exec .codecNew (withStage [0x0#32, 0xFFFFFFFF#32] State.reset)) (fun t =>
      t.statusWord == 0x2#64 && t.hostRead 0x2008#16 == 0xFFFFFFFF#64) = true := by
  decide

/-- CODEC_ENCODE, HEX, 255 gives "ff". -/
theorem test_codecEncode_ff :
    nextHas (exec .codecEncode { hex with opa := 255#64 }) (fun t =>
      t.string == [0x66#32, 0x66#32] && t.statusWord == 0x2#64) = true := by decide

/-- CODEC_ENCODE, HEX, 0 gives "0". -/
theorem test_codecEncode_zero :
    nextHas (exec .codecEncode hex) (fun t => t.string == [0x30#32]) = true := by decide

/-- CODEC_DECODE, HEX, "12g4": the index and the character. -/
theorem test_codecDecode_invalid :
    nextHas (exec .codecDecode (withString [0x31#32, 0x32#32, 0x67#32, 0x34#32] hex)) (fun t =>
      t.errCode == 0x04#8 && t.errInfo0 == 2#64 && t.errInfo1 == 0x67#64) = true := by decide

/-- CODEC_DECODE, HEX, 17 times "f" overflows, 16 times does not. -/
theorem test_codecDecode_overflow :
    nextHas (exec .codecDecode (withString (List.replicate 17 0x66#32) hex)) (fun t =>
      t.errCode == 0x05#8 && t.errInfo0 == 0xFFFFFFFFFFFFFFFF#64 && t.errInfo1 == 0xF#64) = true
    ∧ nextHas (exec .codecDecode (withString (List.replicate 16 0x66#32) hex)) (fun t =>
      t.errCode == 0x00#8 && t.result == 0xFFFFFFFFFFFFFFFF#64) = true := by decide

/-- The string "1aab92752e4" of S1's row 28. -/
def padString : List CharCode :=
  [0x31#32, 0x61#32, 0x61#32, 0x62#32, 0x39#32, 0x32#32, 0x37#32, 0x35#32, 0x32#32, 0x65#32, 0x34#32]

/-- ENCODE, S1's row 28: the pad path. -/
theorem test_encode_pads :
    nextHas (exec .encode (withCodec hexChars (mixer keyKS 0x1CAAB92752#64 28#5))) (fun t =>
      t.result == 0x1AAB92752E4#64 && t.string == padString && t.key == 0#64 && t.statusWord == 0x2#64) = true := by
  decide

/-- ENCODE of 2^56 with no codec: NO_CODEC before DOMAIN. -/
theorem test_encode_no_codec :
    nextHas (exec .encode (mixer 1#64 0x0100000000000000#64 0#5)) (fun t =>
      t.errCode == 0x11#8 && t.errInfo0 == 0#64 && t.key == 0#64) = true := by decide

/-- DECODE of S1's row 28. -/
theorem test_decode_unpads :
    nextHas (exec .decode (withString padString (withCodec hexChars (mixer keyKS 0#64 0#5)))) (fun t =>
      t.result == 123123345234#64 && t.key == 0#64 && t.statusWord == 0x2#64) = true := by decide

/-- DECODE "daab9275289" with key 0 (UM23): CHECKSUM_KEY, RESULT unchanged. -/
theorem test_decode_wrong_key :
    nextHas (exec .decode (withString
        [0x64#32, 0x61#32, 0x61#32, 0x62#32, 0x39#32, 0x32#32, 0x37#32, 0x35#32, 0x32#32, 0x38#32, 0x39#32]
        (withCodec hexChars (mixer 0#64 0#64 0#5)))) (fun t =>
      t.errCode == 0x07#8 && t.errInfo0 == 0xDAAB9275289#64 && t.result == 0x77#64) = true := by decide

/-- An illegal word keeps KEY. -/
theorem test_illegal_keeps_key :
    nextHas (step { mixer 5#64 0#64 0#5 with busy := true, cmd := 0x8000000000000001#64 }) (fun t =>
      t.errCode == 0x10#8 && t.errInfo0 == 0x8000000000000001#64 && t.key == 5#64 && !t.busy) = true := by decide

/-! ### Host accesses and reset -/

/-- HA1, HA7, HA8, HA13: reads after reset. -/
theorem test_reads_after_reset :
    [(0x0018#16, 0x0000002000800100#64), (0x0088#16, 0#64), (0x4000#16, 0#64), (0xFFF8#16, 0#64),
      (0x2000#16, 0#64), (0x1800#16, 0#64)].all (fun r => State.reset.hostRead r.1 == r.2) = true := by decide

/-- HA2 to HA6: a write and the read after it. -/
theorem test_writes_after_reset :
    [(0x0020#16, 5#64, 0#64), (0x0030#16, 7#64, 0#64), (0x0010#16, 0xFFFF#64, 0x3#64),
      (0x0048#16, 0xFF#64, 0x1F#64), (0x1000#16, 0x100000061#64, 0x61#64)].all
      (fun r => (State.reset.hostWrite r.1 r.2.1).hostRead r.1 == r.2.2) = true := by decide

/-- HA9, HA10, HA11: LOST. -/
theorem test_lost :
    ((State.reset.hostWrite 0#16 3#64).hostWrite 0x28#16 9#64).opa = 0#64
      ∧ ((State.reset.hostWrite 0#16 3#64).hostWrite 0x28#16 9#64).lost = true
      ∧ ({ State.reset with lost := true }.hostWrite 8#16 0#64).lost = true
      ∧ ({ State.reset with lost := true }.hostWrite 8#16 4#64).lost = false := by decide

/-- HA12: an access of 4 bytes, and one at offset 0x0004. -/
theorem test_illegal_access_refused :
    isRefused (step (withHost [.rd 0x0020#16 4 0] State.reset)) = true
      ∧ isRefused (step (withHost [.wr 0x0004#16 8 (.lit 1#64)] State.reset)) = true := by decide

/-- R63: byte 2 of PARAMS is the low byte of STR_MAX. -/
theorem test_read_byte : State.reset.hostReadByte 0x0018#16 2 = 0x80#8 := by decide

/-- A Host turn: `rd PARAMS -> x0`, then `set x1, x0 - 1`. -/
theorem test_host_variables :
    nextHas (Host.Core.run core 2 (withHost [rdReg 0x0018#16 0, .assign 1 (.sub (.var 0) (.lit 1#64))] State.reset))
      (fun t => t.host.get 1 == 0x00000020008000FF#64 && t.host.pos == 2) = true := by decide

/-- RS1: Reset while a command is pending. -/
theorem test_reset_aborts :
    nextHas (step { pending .encode { hex with key := 5#64, result := 7#64 } with turns := [.reset] }) (fun t =>
      !t.busy && !t.codecValid && t.codecLen == 0#64 && t.errCode == 0#8 && t.result == 0#64 && t.key == 0#64
        && t.cmd == 0#64) = true := by decide

/-- RS2: CODEC_ENCODE after reset. -/
theorem test_no_codec_after_reset :
    nextHas (step (pending .codecEncode State.reset)) (fun t => t.statusWord == 0x1100#64) = true := by decide

/-- P3: the two orders of `wr OPA` and the Complete step of MIX differ in LOST and in OPA. -/
theorem test_both_schedules :
    nextHas (Host.Core.run core 2 (withHost [wrReg 0x28#16 (.lit 7#64)]
        { pending .mix (mixer 5#64 0x0100000000000000#64 0#5) with turns := [.host, .engine] }))
      (fun t => t.statusWord == 0x0104#64 && t.opa == 0x0100000000000000#64) = true
    ∧ nextHas (Host.Core.run core 2 (withHost [wrReg 0x28#16 (.lit 7#64)]
        { pending .mix (mixer 5#64 0x0100000000000000#64 0#5) with turns := [.engine, .host] }))
      (fun t => t.statusWord == 0x0100#64 && t.opa == 7#64) = true := by decide

/-- P5 keeps the duty about KEY between ENCODE and DECODE; without the second write it is broken (R264). -/
theorem test_key_duty :
    keepsKeyDuty false [(0x20#16, keyKS), (0x28#16, 7#64), (0x00#16, 0x20#64), (0x20#16, keyKS), (0x00#16, 0x21#64)] = true
      ∧ keepsKeyDuty false [(0x20#16, keyKS), (0x28#16, 7#64), (0x00#16, 0x20#64), (0x00#16, 0x21#64)] = false := by
  decide

/-! ### Witnesses: for each statement with hypotheses, states and operands that meet them -/

/-- Both orders of turns the statement allows. -/
theorem witness_StepRunsDecodedCommand :
    ∃ s u : State, (s.busy = true ∧ s.turns = [] ∧ Sys2Proof.decode s.cmd = .ok .mix)
      ∧ (u.busy = true ∧ u.turns.head? = some .engine ∧ Sys2Proof.decode u.cmd = .ok .decode) :=
  ⟨pending .mix State.reset, { pending .decode State.reset with turns := [.engine, .host] }, by decide⟩

/-- A reserved bit with a legal OPC; opcodes just outside the map. -/
theorem witness_IllegalWordCompletesWithIllegalCmd :
    ∃ s u v : State, (s.busy = true ∧ s.cmd.toNat / 256 ≠ 0)
      ∧ (u.busy = true ∧ u.cmd.toNat % 256 ∉ [0x01, 0x02, 0x03, 0x10, 0x11, 0x12, 0x20, 0x21])
      ∧ (v.busy = true ∧ v.cmd.toNat % 256 ∉ [0x01, 0x02, 0x03, 0x10, 0x11, 0x12, 0x20, 0x21]) :=
  ⟨{ State.reset with busy := true, cmd := 0x101#64 }, { State.reset with busy := true, cmd := 0x04#64 },
    { State.reset with busy := true, cmd := 0x0#64 }, by decide⟩

/-- A keyed command that fails with TRACE_EN = 0, and the two commands that never write RESULT. -/
theorem witness_ErrorCompletionWritesNoResult :
    (∃ s t : State, exec .unmix s = .next t ∧ t.errCode ≠ 0x00#8 ∧ s.traceEn = false)
      ∧ (∃ s t : State, exec .codecNew s = .next t) ∧ ∃ s t : State, exec .codecEncode s = .next t :=
  ⟨⟨mixer 0#64 1#64 0#5, _, rfl, by decide, rfl⟩, ⟨State.reset, _, rfl⟩, ⟨hex, _, rfl⟩⟩

theorem witness_ClassifyComparesTwoThresholds :
    classify 0xFFFF#64 = .small ∧ classify 0x10000#64 = .medium ∧ classify 0xFFFFFFFF#64 = .medium
      ∧ classify 0x100000000#64 = .large := by decide

theorem witness_ParityFoldsBits : popcount (0x3#64 ^^^ 0x0#64) % 2 = 0 := by decide

/-- The smallest id outside the domain. -/
theorem witness_MixRejectsIdAboveDomain : ∃ s : State, 0x00FFFFFFFFFFFFFF < s.opa.toNat :=
  ⟨mixer keyK 0x0100000000000000#64 0#5, by decide⟩

/-- The largest and the smallest id of the domain. -/
theorem witness_MixCompletesWithMixedValue :
    ∃ s u : State, s.opa.toNat ≤ 0x00FFFFFFFFFFFFFF ∧ u.opa.toNat ≤ 0x00FFFFFFFFFFFFFF :=
  ⟨mixer keyK 0x00FFFFFFFFFFFFFF#64 31#5, mixer 0#64 0#64 0#5, by decide⟩

theorem witness_MixTracePoints :
    (∃ s t : State, exec .mix s = .next t ∧ s.traceEn = true ∧ s.opa.toNat ≤ 0x00FFFFFFFFFFFFFF)
      ∧ (∃ s t : State, exec .mix s = .next t ∧ s.traceEn = false)
      ∧ ∃ s t : State, exec .mix s = .next t ∧ 0x00FFFFFFFFFFFFFF < s.opa.toNat :=
  ⟨⟨{ mixer keyK 0x00FFFFFFFFFFFFFF#64 31#5 with traceEn := true }, _, rfl, rfl, by decide⟩,
    ⟨mixer keyK 0#64 0#5, _, rfl, rfl⟩, ⟨mixer keyK 0x0100000000000000#64 0#5, _, rfl, by decide⟩⟩

theorem witness_MixNeverTruncates : (0x00FFFFFFFFFFFFFF#64 : Word).toNat ≤ 0x00FFFFFFFFFFFFFF := by decide

/-- UM2: both checks pass. -/
theorem witness_UnmixCompletesWithId :
    ∃ s : State,
      let c := classify (s.opa >>> 8)
      let s2 := recovered c s.opa
      let nonce := (s.opa.extractLsb' 3 5).setWidth 64 <<< c.saltShift
      parity s2 = s.opa.getLsbD 0 ∧ parity (s2 ^^^ (nonce ^^^ (s.key &&& c.mask))) = s.opa.getLsbD 1 :=
  ⟨mixer keyK 0x100000E#64 0#5, by decide⟩

/-- UM11 fails the salt check; UM12 passes it and fails the key check. -/
theorem witness_UnmixErrorsInOrder :
    ∃ s u : State,
      parity (recovered (classify (s.opa >>> 8)) s.opa) ≠ s.opa.getLsbD 0
      ∧ (let c := classify (u.opa >>> 8)
         let s2 := recovered c u.opa
         let nonce := (u.opa.extractLsb' 3 5).setWidth 64 <<< c.saltShift
         parity s2 = u.opa.getLsbD 0 ∧ parity (s2 ^^^ (nonce ^^^ (u.key &&& c.mask))) ≠ u.opa.getLsbD 1) :=
  ⟨mixer keyK 0x100000F#64 0#5, mixer keyK 0x100000C#64 0#5, by decide⟩

theorem witness_UnmixResultInDomain : ∃ s t : State, exec .unmix s = .next t ∧ t.errCode = 0x00#8 :=
  ⟨mixer keyK 0xFFFFE0FFFFFFFFFB#64 0#5, _, rfl, by decide⟩

/-- M12, and the two padded shapes M8 and M11. -/
theorem witness_MixThenUnmixGivesId :
    (mixer keyK 0x00FFFFFFFFFFFFFF#64 31#5).opa.toNat ≤ 0x00FFFFFFFFFFFFFF
      ∧ nextHas (exec .mix (mixer keyK 0x1ABCD#64 1#5)) (fun t => mixedPad t.result) = true
      ∧ nextHas (exec .mix (mixer keyK 0x1F12345678#64 31#5)) (fun t => mixedPad t.result) = true := by decide

/-- UM9 and UM10: wrong keys of odd and of even distance. -/
theorem witness_WrongKeyIsCaughtOrHarmless :
    ∃ s : State, s.opa.toNat ≤ 0x00FFFFFFFFFFFFFF
      ∧ (s.key ^^^ 1#64 ≠ s.key ∧ parity ((s.key ^^^ (s.key ^^^ 1#64)) &&& (classify s.opa).mask) = true)
      ∧ (s.key ^^^ 3#64 ≠ s.key ∧ parity ((s.key ^^^ (s.key ^^^ 3#64)) &&& (classify s.opa).mask) = false) :=
  ⟨mixer keyKS 0x1CAAB92752#64 0#5, by decide⟩

/-- A change of rand by one bit and by two bits, and a change of scrambled2 by one bit within the class. -/
theorem witness_TamperOutcomes :
    ∃ s : State, s.opa.toNat ≤ 0x00FFFFFFFFFFFFFF
      ∧ (1#5 ≠ 0#5 ∧ parity ((1#5).setWidth 64) = true) ∧ (3#5 ≠ 0#5 ∧ parity ((3#5).setWidth 64) = false)
      ∧ (0x100#64 : Word).extractLsb' 0 8 = 0#8
      ∧ nextHas (exec .mix s) (fun t =>
          classify ((t.result ^^^ 0x100#64) >>> 8) == classify s.opa
            && parity (recovered (classify s.opa) (t.result ^^^ 0x100#64)
              ^^^ recovered (classify s.opa) t.result)) = true :=
  ⟨mixer keyK 0x10000#64 1#5, by decide⟩

theorem witness_MixShowsKeyInOneBit : ∃ s : State, s.traceEn = false := ⟨mixer keyK 0x10000#64 1#5, rfl⟩

/-- The shortest alphabet and one of ALPHA_MAX characters. -/
theorem witness_CodecNewCommitsAlphabet :
    (∃ s : State, s.alphaStageLen.toNat = 2
      ∧ ∀ i j : Nat, i < j → j < s.alphaStageLen.toNat → s.alphaStage.read i ≠ s.alphaStage.read j)
    ∧ ∃ s : State, s.alphaStageLen.toNat = 256
      ∧ ∀ i j : Nat, i < j → j < s.alphaStageLen.toNat → s.alphaStage.read i ≠ s.alphaStage.read j := by
  refine ⟨⟨withStage [0x61#32, 0x62#32] State.reset, rfl, ?_⟩,
    ⟨{ State.reset with
        alphaStage := Table.tabulate (fun i => BitVec.ofNat 32 (0x10000 + i)) 0 256, alphaStageLen := 256#64 },
      rfl, ?_⟩⟩
  · intro i j hij hj
    obtain ⟨rfl, rfl⟩ : i = 0 ∧ j = 1 := by
      have : j < 2 := hj
      omega
    decide
  · intro i j hij hj
    have hj' : j < 256 := hj
    simp only [Table.read_tabulate]
    rw [if_pos (by omega), if_pos (by omega)]
    intro h
    have := congrArg BitVec.toNat h
    simp only [BitVec.toNat_ofNat] at this
    omega

/-- One character too many; the earliest repeat at the last index; no characters and one. -/
theorem witness_CodecNewErrorsInOrder :
    (∃ s : State, 256 < s.alphaStageLen.toNat)
    ∧ (∃ s : State, s.alphaStageLen.toNat ≤ 256 ∧ 1 < 2 ∧ 2 < s.alphaStageLen.toNat
        ∧ s.alphaStage.read 1 = s.alphaStage.read 2
        ∧ ∀ k l : Nat, k < l → l < 2 → s.alphaStage.read k ≠ s.alphaStage.read l)
    ∧ (∃ s : State, s.alphaStageLen.toNat = 1) ∧ ∃ s : State, s.alphaStageLen.toNat = 0 := by
  refine ⟨⟨{ State.reset with alphaStageLen := 257#64 }, by decide⟩,
    ⟨withStage [0x61#32, 0x62#32, 0x62#32] State.reset, by decide, by decide, by decide, by decide, ?_⟩,
    ⟨{ State.reset with alphaStageLen := 1#64 }, by decide⟩, ⟨State.reset, by decide⟩⟩
  intro k l hkl hl
  obtain ⟨rfl, rfl⟩ : k = 0 ∧ l = 1 := by omega
  decide

/-- A value of many digits and the value 0. -/
theorem witness_CodecEncodeWritesPositionalDigits :
    (∃ s : State, s.codecWf = true ∧ s.codecValid = true ∧ s.opa ≠ 0#64)
      ∧ ∃ s : State, s.codecWf = true ∧ s.codecValid = true ∧ s.opa = 0#64 :=
  ⟨⟨{ hex with opa := 0xFFFFFFFFFFFFFFFF#64 }, by decide⟩, ⟨ab, by decide⟩⟩

theorem witness_NoCodecIsCheckedFirst : ∃ s : State, s.codecValid = false := ⟨State.reset, rfl⟩

/-- The empty string, and 128 times the character of digit 0, the longest string. -/
theorem witness_CodecDecodeGivesStringValue :
    (∃ s : State, s.codecWf = true ∧ s.codecValid = true ∧ s.strLen.toNat ≤ 128 ∧ stringDigits s []
        ∧ positional s.codecLen.toNat [] ≤ 0xFFFFFFFFFFFFFFFF)
    ∧ ∃ s : State, s.codecWf = true ∧ s.codecValid = true ∧ s.strLen.toNat = 128
        ∧ stringDigits s (List.replicate 128 0)
        ∧ positional s.codecLen.toNat (List.replicate 128 0) ≤ 0xFFFFFFFFFFFFFFFF := by
  refine ⟨⟨hex, by decide, by decide, by decide, ⟨rfl, fun i h => absurd h (Nat.not_lt_zero i)⟩, by decide⟩,
    ⟨{ withCodec [0#32, 1#32] State.reset with strLen := 128#64 }, by decide, by decide, by decide, ⟨rfl, ?_⟩, ?_⟩⟩
  · intro i h
    rw [List.getElem_replicate]
    exact ⟨by decide, rfl⟩
  · have zeros : ∀ k n : Nat, positional n (List.replicate k 0) = 0 := by
      intro k n
      unfold positional
      induction k with
      | zero => rfl
      | succ k ih => simpa [List.replicate_succ] using ih
    rw [zeros]
    exact Nat.zero_le _

/-- Too long by one; an invalid character behind a valid one; 17 times the digit 15. -/
theorem witness_CodecDecodeErrorsInOrder :
    (∃ s : State, s.codecWf = true ∧ s.codecValid = true ∧ 128 < s.strLen.toNat)
    ∧ (∃ s : State, s.codecWf = true ∧ s.codecValid = true ∧ s.strLen.toNat ≤ 128 ∧ 1 < s.strLen.toNat
        ∧ (∀ d : Nat, d < s.codecLen.toNat → s.codecTab.read d ≠ s.str.read 1)
        ∧ ∀ k : Nat, k < 1 → ∃ d : Nat, d < s.codecLen.toNat ∧ s.codecTab.read d = s.str.read k)
    ∧ ∃ (s : State) (ds : List Nat), s.codecWf = true ∧ s.codecValid = true ∧ s.strLen.toNat ≤ 128
        ∧ stringDigits s ds ∧ 0xFFFFFFFFFFFFFFFF < positional s.codecLen.toNat ds := by
  refine ⟨⟨{ hex with strLen := 129#64 }, by decide⟩,
    ⟨withString [0x62#32, 0x63#32] ab, by decide, by decide, by decide, by decide, by decide, ?_⟩,
    ⟨withString (List.replicate 17 0x66#32) hex, List.replicate 17 15, by decide, by decide, by decide, ⟨rfl, ?_⟩,
      by decide⟩⟩
  · intro k hk
    obtain rfl : k = 0 := by omega
    exact ⟨1, by decide⟩
  · decide

theorem witness_WrappingAccumulatorIsExact :
    (∃ alpha : List CharCode, 2 ≤ alpha.length ∧ alpha.length ≤ 512)
      ∧ ∃ alpha : List CharCode, 2 ≤ alpha.length ∧ alpha.length = 512 := by
  refine ⟨⟨[0x61#32, 0x62#32], by decide⟩, ⟨List.replicate 512 0x61#32, ?_, List.length_replicate⟩⟩
  rw [List.length_replicate]
  omega

theorem witness_CodecEncodeThenDecodeGivesValue :
    ∃ s : State, s.codecWf = true ∧ s.codecValid = true ∧ s.opa = 0xFFFFFFFFFFFFFFFF#64 :=
  ⟨{ ab with opa := 0xFFFFFFFFFFFFFFFF#64 }, by decide⟩

theorem witness_EncodeIsMixThenCodecEncode :
    (∃ s : State, s.codecValid = true ∧ s.opa.toNat ≤ 0x00FFFFFFFFFFFFFF)
      ∧ ∃ s : State, s.codecValid = true ∧ 0x00FFFFFFFFFFFFFF < s.opa.toNat :=
  ⟨⟨{ hex with opa := 0x00FFFFFFFFFFFFFF#64 }, by decide⟩, ⟨{ hex with opa := 0x0100000000000000#64 }, by decide⟩⟩

/-- A codec stage that fails and one that succeeds. -/
theorem witness_DecodeIsCodecDecodeThenUnmix :
    nextHas (exec .codecDecode State.reset) (fun t => t.errCode != 0x00#8) = true
      ∧ nextHas (exec .codecDecode hex) (fun t => t.errCode == 0x00#8) = true := by decide

/-- S1, row 28 of the table: the padded string with its own key. -/
theorem witness_DecodeCompletesWithId :
    ∃ (s : State) (ds : List Nat), s.codecWf = true ∧ s.codecValid = true ∧ s.strLen.toNat ≤ 128 ∧ stringDigits s ds
      ∧ positional s.codecLen.toNat ds ≤ 0xFFFFFFFFFFFFFFFF
      ∧ (let v := BitVec.ofNat 64 (positional s.codecLen.toNat ds)
         let c := classify (v >>> 8)
         let nonce := (v.extractLsb' 3 5).setWidth 64 <<< c.saltShift
         parity (recovered c v) = v.getLsbD 0
          ∧ parity (recovered c v ^^^ (nonce ^^^ (s.key &&& c.mask))) = v.getLsbD 1) := by
  refine ⟨{ withString padString hex with key := keyKS }, [1, 10, 10, 11, 9, 2, 7, 5, 2, 14, 4], by decide, by decide,
    by decide, ⟨rfl, ?_⟩, by decide, by decide⟩
  decide

theorem witness_EncodeThenDecodeGivesId :
    ∃ s : State, s.codecWf = true ∧ s.codecValid = true ∧ s.opa.toNat ≤ 0x00FFFFFFFFFFFFFF :=
  ⟨withCodec hexChars (mixer keyKS 0x1CAAB92752#64 28#5), by decide⟩

/-- The first and the last entry of the three tables, and the last control register. -/
theorem witness_RegisterMapHasNoOverlap :
    regAt 0x17F8#16 = .alphaStage 255 ∧ regAt 0x2000#16 = .codecTab 0 ∧ regAt 0x33F8#16 = .str 127
      ∧ regAt 0x0080#16 = .traceFinal ∧ (Reg.str 127).offset = some 0x33F8 := by decide

/-- The offsets just outside the mapped ones. -/
theorem witness_UnmappedOffsets :
    [0x0088#16, 0x0FF8#16, 0x1800#16, 0x1FF8#16, 0x2800#16, 0x2FF8#16, 0x3400#16, 0x3FF8#16, 0x4000#16, 0xFFF8#16].all
      (fun off => off.toNat % 8 == 0 && regAt off == .unmapped) = true := by decide

theorem witness_TableEntriesReadAndWrite : 255 < 256 ∧ 127 < 128 ∧ State.reset.busy = false := by decide

theorem witness_WritesWhileIdle :
    State.reset.busy = false ∧ 255 < 256 ∧ 127 < 128 ∧ regAt 0x1800#16 = .unmapped := by decide

theorem witness_WriteWhileBusyIsLost : (pending .mix State.reset).busy = true ∧ 0x0000#16 ≠ 0x0008#16 := by decide

theorem witness_StatusWriteClearsLost : (4#64 : Word).getLsbD 2 = true ∧ (3#64 : Word).getLsbD 2 = false := by decide

theorem witness_ResetEventSetsEveryRegister : ∃ s : State, s.agent = .reset ∧ s.busy = true :=
  ⟨{ pending .encode hex with turns := [.reset] }, by decide⟩

theorem witness_ResetStateReadsZero :
    [0x0000#16, 0x0FF8#16, 0x2000#16, 0x2FF8#16].all
      (fun off => off != 0x0018#16 && (off.toNat < 0x1000 || (0x2000 ≤ off.toNat && off.toNat < 0x3000))) = true := by
  decide

/-- A step of each agent from a state that meets the invariant. -/
theorem witness_StepKeepsInvariant :
    (∃ s t : State, s.inv = true ∧ s.agent = .engine ∧ step s = .next t)
      ∧ (∃ s t : State, s.inv = true ∧ s.agent = .host ∧ step s = .next t)
      ∧ ∃ s t : State, s.inv = true ∧ s.agent = .reset ∧ step s = .next t :=
  ⟨⟨pending .codecNew (withStage [0x61#32, 0x62#32] hex), _, by decide, rfl, rfl⟩,
    ⟨withHost [wrReg 0x33F8#16 (.lit 5#64)] hex, _, by decide, rfl, rfl⟩,
    ⟨{ hex with turns := [.reset] }, _, by decide, rfl, rfl⟩⟩

/-- A successful CODEC_NEW, and a Reset. -/
theorem witness_OnlyCodecNewOrResetChangesCodec :
    (∃ s t : State, step s = .next t ∧ t.codecLen ≠ s.codecLen ∧ s.agent = .engine)
      ∧ ∃ s t : State, step s = .next t ∧ t.codecValid ≠ s.codecValid ∧ s.agent = .reset :=
  ⟨⟨pending .codecNew (withStage [0x61#32, 0x62#32] hex), _, rfl, by decide, rfl⟩,
    ⟨{ hex with turns := [.reset] }, _, rfl, by decide, rfl⟩⟩

/-- BUSY after an issue, after a completion, and while a write is lost. -/
theorem witness_BusySetByIssueClearedByCompletion :
    (∃ s t : State, step s = .next t ∧ s.busy = false ∧ t.busy = true)
      ∧ (∃ s t : State, step s = .next t ∧ s.busy = true ∧ t.busy = false)
      ∧ ∃ s t : State, step s = .next t ∧ s.busy = true ∧ t.busy = true :=
  ⟨⟨withHost (cmdLines .classify) State.reset, _, rfl, rfl, rfl⟩, ⟨pending .classify State.reset, _, rfl, rfl, rfl⟩,
    ⟨withHost (cmdLines .mix) { pending .classify State.reset with turns := [.host] }, _, rfl, rfl, rfl⟩⟩

/-- LOST set by a write while busy, and cleared by `clrlost`. -/
theorem witness_LostIsSticky :
    (∃ s t : State, step s = .next t ∧ s.lost = false ∧ t.lost = true)
      ∧ ∃ s t : State, step s = .next t ∧ s.lost = true ∧ t.lost = false :=
  ⟨⟨withHost [wrReg 0x0028#16 (.lit 7#64)] { pending .mix State.reset with turns := [.host] }, _, rfl, rfl, rfl⟩,
    ⟨withHost clrlostLines { State.reset with lost := true }, _, rfl, rfl, rfl⟩⟩

/-- KEY changed by a Host write, by a keyed command and by Reset. -/
theorem witness_KeyIsWriteOnlyAndZeroed :
    (∃ s t : State, step s = .next t ∧ t.key ≠ s.key ∧ s.agent = .host)
      ∧ (∃ s t : State, step s = .next t ∧ t.key ≠ s.key ∧ s.agent = .engine)
      ∧ ∃ s t : State, step s = .next t ∧ t.key ≠ s.key ∧ s.agent = .reset :=
  ⟨⟨withHost [wrReg 0x0020#16 (.lit 5#64)] State.reset, _, rfl, by decide, rfl⟩,
    ⟨pending .unmix (mixer keyK 0#64 0#5), _, rfl, by decide, rfl⟩,
    ⟨{ mixer keyK 0#64 0#5 with turns := [.reset] }, _, rfl, by decide, rfl⟩⟩

/-- Two Host turns, a lost write and a read of STATUS, while a command is pending. -/
theorem witness_PendingCommandIsFrozen :
    ∃ s t : State, s.busy = true ∧ s.turns = List.replicate 2 .host ∧ Host.Core.run core 2 s = .next t :=
  ⟨withHost [wrReg 0x0028#16 (.lit 7#64), rdReg 0x0008#16 0]
      { pending .classify State.reset with turns := [.host, .host] }, _, rfl, rfl, rfl⟩

theorem witness_CompletionWaitsWithoutChange :
    ∃ s u : State, s.busy = true ∧ s.turns = List.replicate 2 .host ∧ Host.Core.run core (2 + 1) s = .next u :=
  ⟨withHost [wrReg 0x0028#16 (.lit 7#64), rdReg 0x0008#16 0]
      { pending .classify State.reset with turns := [.host, .host] }, _, rfl, rfl, rfl⟩

theorem witness_OnlyIllegalAccessIsRefused :
    ∃ s : State, hostProgramWf s.host.prog = true ∧ s.host.prog ≠ [] :=
  ⟨withHost (runLines 0 0 .classify) State.reset, by decide⟩

theorem witness_HostReadHasNoSideEffect :
    ∃ s : State, (0xFFF8#16 : Offset).toNat % 8 = 0 ∧ s.host.line = some (.rd 0xFFF8#16 8 0) :=
  ⟨withHost [rdReg 0xFFF8#16 0] State.reset, by decide⟩

theorem witness_HostControlLinesStayInHost :
    (∃ s : State, s.host.line = some (.assign 1 (.add (.var 0) (.lit 1#64))))
      ∧ (∃ s : State, s.host.line = some (.jump 0))
      ∧ ∃ s : State, s.host.line = some (.branch .lt (.var 0) (.lit 32#64) 0) :=
  ⟨⟨withHost [.assign 1 (.add (.var 0) (.lit 1#64))] State.reset, by decide⟩,
    ⟨withHost [.jump 0] State.reset, by decide⟩,
    ⟨withHost [.branch .lt (.var 0) (.lit 32#64) 0] State.reset, by decide⟩⟩

theorem witness_WaitLoopsWhileBusy :
    ∃ s : State, s.host.prog = cmdLines .mix ++ waitLines (cmdLines .mix).length 0 ++ []
      ∧ s.host.pos = (cmdLines .mix).length ∧ s.turns = [.host, .host] ∧ s.busy = true :=
  ⟨{ pending .mix State.reset with host := ⟨runLines 0 0 .mix, 1, []⟩, turns := [.host, .host] }, by decide⟩

/-- The empty string, and one of ALPHA_MAX characters. -/
theorem witness_LdalphaLoadsAlphabet :
    (∃ s : State, ([] : List CharCode).length ≤ 256 ∧ s.host.prog = [] ++ ldalphaLines [] ++ []
        ∧ s.host.pos = 0 ∧ s.turns = [] ∧ s.busy = false)
    ∧ ∃ (s : State) (cs : List CharCode), cs.length = 256 ∧ s.host.prog = [] ++ ldalphaLines cs ++ []
        ∧ s.host.pos = 0 ∧ s.turns = [] ∧ s.busy = false :=
  ⟨⟨withHost (ldalphaLines []) State.reset, by decide⟩,
    ⟨withHost ([] ++ ldalphaLines (List.replicate 256 0x61#32) ++ []) State.reset, List.replicate 256 0x61#32,
      List.length_replicate, rfl, rfl, rfl, rfl⟩⟩

theorem witness_BootCommitsCodec :
    ∃ (s : State) (cs : List CharCode), 2 ≤ cs.length ∧ cs.length ≤ 256 ∧ cs.Nodup
      ∧ s.host.prog = ldalphaLines cs ++ runLines (cs.length + 1) 0 .codecNew ++ [] ∧ s.host.pos = 0
      ∧ s.turns = [] ∧ s.busy = false :=
  ⟨withHost (ldalphaLines hexChars ++ runLines 17 0 .codecNew) State.reset, hexChars, by decide⟩

/-- A dutiful turn with LOST already set: a read of STATUS while busy. -/
theorem witness_DutifulHostLosesNoWrite :
    ∃ s t : State, s.agent = .host ∧ s.hostKeepsDuties = true ∧ step s = .next t ∧ t.lost = true :=
  ⟨withHost [rdReg 0x0008#16 0] { pending .mix { State.reset with lost := true } with turns := [.host] }, _,
    by decide, by decide, rfl, rfl⟩

theorem witness_RunOverStaysOver : ∃ s : State, s.runOver = true ∧ s.turns = [] := ⟨State.reset, by decide⟩

end Sys2Proof.Tests
end

section
/-! SUPPORT and PROOFS. What a step does to STATUS.BUSY and STATUS.LOST (10_state.md R25, R27). -/
namespace Sys2Proof.Machine

/-! ### The register map -/

/-- A register below the tables stands at its own offset (R64). -/
theorem controlRegAt_offset (o : Nat) :
    controlRegAt o = .unmapped ∨ (controlRegAt o).offset = some o := by
  unfold controlRegAt
  split <;> simp [Reg.offset]

/-- In a table region, an entry that lies inside the table stands at its own offset (R64, R65). -/
theorem slotAt_offset {entry : Nat → Reg} {base size o : Nat}
    (hentry : ∀ i < size, (entry i).offset = some (base + 8 * i)) (hbase : base % 8 = 0) (ho : base ≤ o) :
    slotAt entry base size o = .unmapped ∨ (slotAt entry base size o).offset = some o := by
  unfold slotAt
  split
  · next h =>
    have hslot : base + 8 * ((o - base) / 8) = o := by omega
    exact .inr (by rw [hentry _ h.2, hslot])
  · exact .inl rfl

/-- The register that the map has at an offset is unmapped or has that offset (R64). -/
theorem regAt_offset (off : Offset) : regAt off = .unmapped ∨ (regAt off).offset = some off.toNat := by
  unfold regAt
  dsimp only
  split
  · exact controlRegAt_offset _
  split
  · exact slotAt_offset (fun _ hi => if_pos hi) (by decide) (by omega)
  split
  · exact slotAt_offset (fun _ hi => if_pos hi) (by decide) (by omega)
  split
  · exact slotAt_offset (fun _ hi => if_pos hi) (by decide) (by omega)
  · exact .inl rfl

/-- The map has a register at no offset but the register's own (R64). -/
theorem toNat_eq_of_regAt_eq {off : Offset} {r : Reg} {o : Nat} (h : regAt off = r) (hr : r.offset = some o) :
    off.toNat = o := by
  subst h
  obtain hu | ho := regAt_offset off
  · rw [hu] at hr
    cases hr
  · exact Option.some.inj (ho.symm.trans hr)

/-- CMD is at offset 0x0000 and nowhere else (R64). -/
theorem regAt_eq_cmd_iff (off : Offset) : regAt off = .cmd ↔ off = 0x0000#16 :=
  ⟨fun h => BitVec.eq_of_toNat_eq (toNat_eq_of_regAt_eq h rfl), by rintro rfl; rfl⟩

/-- STATUS is at offset 0x0008 and nowhere else (R64). -/
theorem regAt_eq_status_iff (off : Offset) : regAt off = .status ↔ off = 0x0008#16 :=
  ⟨fun h => BitVec.eq_of_toNat_eq (toNat_eq_of_regAt_eq h rfl), by rintro rfl; rfl⟩

/-! ### BUSY, LOST and CMD after a HostWrite -/

/-- Of the registers, only a write to CMD sets BUSY (R67, R70). -/
theorem writeReg_busy (s : State) (r : Reg) (v : Word) :
    (s.writeReg r v).busy = true ↔ s.busy = true ∨ r = .cmd := by
  cases r <;> simp [State.writeReg]

/-- Of the registers, only a write to STATUS changes LOST (R67, R69). -/
theorem writeReg_lost (s : State) {r : Reg} (hr : r ≠ .status) (v : Word) : (s.writeReg r v).lost = s.lost := by
  cases r with
  | status => exact absurd rfl hr
  | _ => rfl

/-- After a HostWrite BUSY is 1 when it was 1 before or the write was to CMD (R67-R70). -/
theorem hostWrite_busy (s : State) (off : Offset) (v : Word) :
    (s.hostWrite off v).busy = true ↔ s.busy = true ∨ off = 0x0000#16 := by
  rw [← regAt_eq_cmd_iff]
  obtain ⟨hr, h⟩ | ⟨-, hb, h⟩ | ⟨-, -, h⟩ := hostWrite_cases s off v
  · simp [h, hr]
  · simp [h, hb]
  · rw [h, writeReg_busy]

/-- A HostWrite made while BUSY = 1 leaves the pending command's word in CMD (R68, R69). -/
theorem hostWrite_cmd_of_busy {s : State} (hb : s.busy = true) (off : Offset) (v : Word) :
    (s.hostWrite off v).cmd = s.cmd := by
  obtain ⟨-, h⟩ | ⟨-, -, h⟩ | ⟨-, hidle, -⟩ := hostWrite_cases s off v
  · simp [h]
  · simp [h]
  · simp [hb] at hidle

/-- LOST after a HostWrite: bit 2 of a write to STATUS clears it, any other write made while BUSY = 1 sets it
(R67-R69). -/
theorem hostWrite_lost (s : State) (off : Offset) (v : Word) :
    (s.hostWrite off v).lost =
      if off = 0x0008#16 then s.lost && !v.getLsbD 2 else s.lost || s.busy := by
  simp only [← regAt_eq_status_iff]
  obtain ⟨hr, h⟩ | ⟨hr, hb, h⟩ | ⟨hr, hb, h⟩ := hostWrite_cases s off v
  · simp [h, hr, State.writeStatus]
  · simp [h, hr, hb]
  · simp [h, hr, hb, writeReg_lost s hr v]

/-! ### A turn of the Host -/

/-- A turn of the Host is a HostWrite, if its line is one, and else leaves the block alone (R96). -/
theorem hostTurn_write_or_frame {s t : State} (h : hostTurn s = .next t) :
    (∃ off width e, s.host.line = some (.wr off width e)
        ∧ t = { s.hostWrite off (e.eval s.host) with host := s.host.advance })
    ∨ ((∀ off width e, s.host.line ≠ some (.wr off width e)) ∧ ∃ hs, t = { s with host := hs }) := by
  obtain ⟨hl, rfl⟩ | ⟨off, width, e, hl, -, ht⟩ | ⟨off, width, x, hl, -, ht⟩ | hframe := hostTurn_cases h
  · exact .inr ⟨by simp [hl], _, rfl⟩
  · exact .inl ⟨off, width, e, hl, ht⟩
  · exact .inr ⟨by simp [hl], _, ht⟩
  · exact .inr hframe

/-- After a turn of the Host BUSY is 1 when it was 1 before or the line was a write to CMD (R25). -/
theorem hostTurn_busy {s t : State} (h : hostTurn s = .next t) :
    t.busy = true ↔ s.busy = true ∨ ∃ width e, s.host.line = some (.wr 0x0000#16 width e) := by
  obtain ⟨off, width, e, hl, rfl⟩ | ⟨hno, hs, rfl⟩ := hostTurn_write_or_frame h
  · simp [hostWrite_busy, hl]
  · simp [hno]

/-- A turn of the Host leaves the pending command's word in CMD (R68). -/
theorem hostTurn_cmd_of_busy {s t : State} (h : hostTurn s = .next t) (hb : s.busy = true) : t.cmd = s.cmd := by
  obtain ⟨off, width, e, -, rfl⟩ | ⟨-, hs, rfl⟩ := hostTurn_write_or_frame h
  · exact hostWrite_cmd_of_busy hb off _
  · rfl

/-! ### The Complete step -/

/-- A Complete step is the completion of the illegal word, or of the pending command's pseudocode (R93, R94). -/
theorem completeStep_eq_complete {s t : State} (h : completeStep s = .next t) :
    t = s.complete false (.illegalCmd s.cmd)
    ∨ ∃ i, Sys2Proof.decode s.cmd = .ok i ∧ t = (commandEnd i s).1.complete i.keyed (commandEnd i s).2 := by
  obtain ⟨i, hi, hc⟩ | ⟨e, -, hc⟩ := completeStep_cases s
  · rw [hc, exec_eq] at h
    exact .inr ⟨i, hi, (Host.Outcome.next.inj h).symm⟩
  · rw [hc] at h
    exact .inl (Host.Outcome.next.inj h).symm

/-- The Complete step clears BUSY (R93). -/
theorem completeStep_busy {s t : State} (h : completeStep s = .next t) : t.busy = false := by
  obtain rfl | ⟨i, -, rfl⟩ := completeStep_eq_complete h <;> rfl

/-- No command's pseudocode writes LOST (R27). -/
theorem commandEnd_lost (i : Instr) (s : State) : (commandEnd i s).1.lost = s.lost := by
  cases i with
  | mix =>
    obtain ⟨-, h⟩ | ⟨-, h⟩ := mixStage_cases s <;> simp [commandEnd, mixCommand, h]
  | unmix =>
    obtain ⟨-, h⟩ | ⟨-, -, h⟩ | ⟨-, -, h⟩ := unmixStage_cases s s.opa <;> simp [commandEnd, unmixCommand, h]
  | classify => rfl
  | codecNew =>
    obtain ⟨-, h⟩ | ⟨-, _, _, -, h⟩ | ⟨-, -, h⟩ | ⟨-, -, -, h⟩ := codecNewCommand_cases s <;> simp [commandEnd, h]
  | codecEncode =>
    cases hv : s.codecValid <;> simp [commandEnd, codecEncodeCommand, hv]
  | codecDecode =>
    cases hd : s.decodeStage <;> simp [commandEnd, codecDecodeCommand, hd]
  | encode =>
    cases hv : s.codecValid with
    | false => simp [commandEnd, encodeCommand, hv]
    | true => obtain ⟨-, h⟩ | ⟨-, h⟩ := mixStage_cases s <;> simp [commandEnd, encodeCommand, hv, h]
  | decode =>
    cases hd : s.decodeStage with
    | error e => simp [commandEnd, decodeCommand, hd]
    | ok v =>
      obtain ⟨-, h⟩ | ⟨-, -, h⟩ | ⟨-, -, h⟩ := unmixStage_cases s v <;> simp [commandEnd, decodeCommand, hd, h]

/-- The Complete step leaves LOST alone (R27). -/
theorem completeStep_lost {s t : State} (h : completeStep s = .next t) : t.lost = s.lost := by
  obtain rfl | ⟨i, -, rfl⟩ := completeStep_eq_complete h
  · rfl
  · rw [complete_lost, commandEnd_lost]

/-! ### The obligations -/

/-- Settles O48: of the agents' turns only the Host's can leave BUSY = 1, and `hostTurn_busy` says when it does. -/
theorem busySetByIssueClearedByCompletion : Obligations.BusySetByIssueClearedByCompletion := by
  intro s t h
  obtain ⟨ha, hturn⟩ | ⟨ha, hb, rfl⟩ | ⟨ha, hb, hc⟩ | ⟨ha, rfl⟩ := step_cases h
  · exact ⟨by simpa [ha] using hostTurn_busy hturn, fun hb _ => hostTurn_cmd_of_busy (s := s.popTurn) hturn hb⟩
  · simp [ha, hb]
  · simp [ha, completeStep_busy hc]
  · simp [ha]

/-- Settles O49: the Engine leaves LOST alone, Reset clears it, and of the Host's lines only a HostWrite changes it, as
`hostWrite_lost` says. -/
theorem lostIsSticky : Obligations.LostIsSticky := by
  intro s t h
  obtain ⟨ha, hturn⟩ | ⟨ha, -, rfl⟩ | ⟨ha, -, hc⟩ | ⟨ha, rfl⟩ := step_cases h
  · obtain ⟨off, width, e, hl, rfl⟩ | ⟨hno, hs, rfl⟩ := hostTurn_write_or_frame hturn
    · rw [popTurn_host] at hl
      simp [ha, hl, hostWrite_lost]
    · -- `hno` rules out the write arm of the statement's match
      rw [popTurn_host] at hno
      simp [ha]
  · simp [ha]
  · simp [ha, completeStep_lost hc]
  · simp [ha]

end Sys2Proof.Machine
end

section
/-! SUPPORT and PROOFS. Unmapped offsets, and writes to STATUS (20_memory.md R65, R69). -/
namespace Sys2Proof.Machine

/-! ### Unmapped offsets -/

/-- The ranges that hold every register's offset: the registers below the tables, then the three tables (R64). -/
theorem Reg.offset_mem_mappedRanges {r : Reg} {o : Nat} (h : r.offset = some o) :
    o < 0x0088 ∨ (0x1000 ≤ o ∧ o < 0x1000 + 8 * 256) ∨ (0x2000 ≤ o ∧ o < 0x2000 + 8 * 256)
      ∨ (0x3000 ≤ o ∧ o < 0x3000 + 8 * 128) := by
  cases r with
  | alphaStage i | codecTab i | str i =>
    obtain ⟨hi, rfl⟩ : i < _ ∧ _ = o := by simpa [Reg.offset] using h
    simp only [Config.alphaMax, Config.strMax] at hi
    omega
  | unmapped => cases h
  | _ =>
    obtain rfl := Option.some.inj h
    decide

/-- An offset outside those ranges is unmapped (R65). -/
theorem regAt_eq_unmapped {off : Offset}
    (h : (0x0088 ≤ off.toNat ∧ off.toNat < 0x1000) ∨ (0x1000 + 8 * 256 ≤ off.toNat ∧ off.toNat < 0x2000)
      ∨ (0x2000 + 8 * 256 ≤ off.toNat ∧ off.toNat < 0x3000)
      ∨ (0x3000 + 8 * 128 ≤ off.toNat ∧ off.toNat < 0x4000) ∨ 0x4000 ≤ off.toNat) :
    regAt off = .unmapped := by
  obtain hu | ho := regAt_offset off
  · exact hu
  · have hmapped := Reg.offset_mem_mappedRanges ho
    omega

/-- An unmapped offset reads 0 (R65, R66). -/
theorem hostRead_of_unmapped {off : Offset} (hu : regAt off = .unmapped) (s : State) : s.hostRead off = 0#64 := by
  rw [State.hostRead, hu, State.readReg]

/-- A write to an unmapped offset has no effect but that of R68 (R65). -/
theorem hostWrite_of_unmapped {off : Offset} (hu : regAt off = .unmapped) (s : State) (v : Word) :
    s.hostWrite off v = if s.busy then { s with lost := true } else s := by
  obtain ⟨hr, -⟩ | ⟨-, hb, h⟩ | ⟨-, hb, h⟩ := hostWrite_cases s off v
  · simp [hu] at hr
  · simp [h, hb]
  · simp [h, hb, hu, State.writeReg]

/-! ### Writes to STATUS -/

/-- STATUS is written whatever BUSY is (R69). -/
theorem hostWrite_status (s : State) (v : Word) : s.hostWrite 0x0008#16 v = s.writeStatus v :=
  if_pos ((regAt_eq_status_iff _).mpr rfl)

/-- A write to STATUS with bit 2 = 1 clears LOST (R69). -/
theorem writeStatus_of_bit2 {v : Word} (hv : v.getLsbD 2 = true) (s : State) :
    s.writeStatus v = { s with lost := false } := by
  rw [State.writeStatus, hv, Bool.not_true, Bool.and_false]

/-- A write to STATUS with bit 2 = 0 changes nothing (R69). -/
theorem writeStatus_of_not_bit2 {v : Word} (hv : v.getLsbD 2 = false) (s : State) : s.writeStatus v = s := by
  rw [State.writeStatus, hv, Bool.not_false, Bool.and_true]

/-! ### The obligations -/

/-- Settles O37: the offsets named are outside every register's range, so the map has them unmapped. -/
theorem unmappedOffsets : Obligations.UnmappedOffsets := by
  intro s off v _ hranges
  have hu := regAt_eq_unmapped hranges
  exact ⟨hostRead_of_unmapped hu s, fun hb => by simp [hostWrite_of_unmapped hu, hb],
    fun hb => by simp [hostWrite_of_unmapped hu, hb]⟩

/-- Settles O42: `hostWrite_status` accepts the write, and bit 2 of the value decides what it does. -/
theorem statusWriteClearsLost : Obligations.StatusWriteClearsLost := by
  intro s v
  rw [hostWrite_status]
  exact ⟨fun hv => writeStatus_of_bit2 hv s, fun hv => writeStatus_of_not_bit2 hv s⟩

end Sys2Proof.Machine
end

section
/-! SUPPORT and PROOFS. The decoder accepts the opcodes of the map alone, and the Engine completes every other command
word with ILLEGAL_CMD (30_encoding.md R90, R92, R94). -/
namespace Sys2Proof

/-! ### The fields of a command word -/

/-- OPC is the low byte of the command word (R90). -/
theorem toNat_opcField (w : Word) : (opcField w).toNat = w.toNat % 256 := by
  simp [opcField]

/-- RSV is the command word without its low byte (R90). -/
theorem toNat_rsvField (w : Word) : (rsvField w).toNat = w.toNat / 256 := by
  have hw := w.isLt
  rw [rsvField, BitVec.extractLsb'_toNat, Nat.shiftRight_eq_div_pow, Nat.mod_eq_of_lt (by omega)]

/-! ### Words that decode -/

/-- Each row of the opcode map lists its command's opcode (R92). -/
theorem opcode_of_mem_opcodeMap : ∀ r ∈ opcodeMap, r.instr.opcode = r.opc := by decide

/-- A word that decodes has RSV = 0 and its command's opcode in OPC (R90, R92). -/
theorem fields_of_decode {w : Word} {i : Instr} (h : decode w = .ok i) :
    rsvField w = 0#56 ∧ opcField w = i.opcode := by
  unfold decode at h
  split at h
  · cases h
  · next hrsv =>
    split at h
    · next r hfind =>
      obtain rfl := Except.ok.inj h
      have hopc : r.opc = opcField w := by simpa using List.find?_some hfind
      exact ⟨not_not.mp hrsv, by rw [opcode_of_mem_opcodeMap r (List.mem_of_find?_eq_some hfind), hopc]⟩
    · cases h

/-- The opcodes of R92. -/
theorem Instr.opcode_mem (i : Instr) :
    i.opcode.toNat ∈ [0x01, 0x02, 0x03, 0x10, 0x11, 0x12, 0x20, 0x21] := by
  cases i <;> decide

/-- A word that decodes is legal as R94 says it: bits 63:8 are 0 and OPC is one of the eight. -/
theorem legal_of_decode {w : Word} {i : Instr} (h : decode w = .ok i) :
    w.toNat / 256 = 0 ∧ w.toNat % 256 ∈ [0x01, 0x02, 0x03, 0x10, 0x11, 0x12, 0x20, 0x21] := by
  obtain ⟨hrsv, hopc⟩ := fields_of_decode h
  rw [← toNat_rsvField, ← toNat_opcField, hrsv, hopc]
  exact ⟨rfl, i.opcode_mem⟩

namespace Machine

/-! ### The Engine's turn -/

/-- While BUSY = 1 the Engine's turn is the Complete step (R93). -/
theorem engineTurn_of_busy {s : State} (hb : s.busy = true) : engineTurn s = completeStep s :=
  if_pos hb

/-- Settles O5: by `legal_of_decode` such a word does not decode, so the Complete step is the completion with
ILLEGAL_CMD, which is not keyed. -/
theorem illegalWordCompletesWithIllegalCmd : Obligations.IllegalWordCompletesWithIllegalCmd := by
  intro s hb hillegal
  rw [engineTurn_of_busy hb]
  obtain ⟨i, hi, -⟩ | ⟨e, -, hc⟩ := completeStep_cases s
  · obtain ⟨hrsv, hopc⟩ := legal_of_decode hi
    exact hillegal.elim (absurd hrsv) (absurd hopc)
  · exact hc

end Machine

end Sys2Proof
end

section
/-! SUPPORT and PROOFS. The size classes, and the word CLASSIFY reports (40_sizeclass.md R110, R112, R113, R115). -/
namespace Sys2Proof.Machine

/-! ### The classes -/

/-- classify by unsigned values: MAX_U16 is 65535 and MAX_U32 is 4294967295 (R6, R110). -/
theorem classify_eq (v : Word) :
    classify v = if v.toNat ≤ 65535 then .small else if v.toNat ≤ 4294967295 then .medium else .large := rfl

/-- What classify can answer (R110). -/
theorem classify_cases (v : Word) :
    (v.toNat ≤ 65535 ∧ classify v = .small)
    ∨ (65535 < v.toNat ∧ v.toNat ≤ 4294967295 ∧ classify v = .medium)
    ∨ (4294967295 < v.toNat ∧ classify v = .large) := by
  rw [classify_eq]
  split_ifs with hsmall hmedium
  · exact .inl ⟨hsmall, rfl⟩
  · exact .inr (.inl ⟨Nat.lt_of_not_le hsmall, hmedium, rfl⟩)
  · exact .inr (.inr ⟨Nat.lt_of_not_le hmedium, rfl⟩)

/-- The word reported for an id, by the two thresholds (R110, R115). -/
theorem report_classify (v : Word) :
    (classify v).report =
      if v.toNat ≤ 65535 then 0x00081000#64
      else if v.toNat ≤ 4294967295 then 0x00102001#64
      else 0x00203802#64 := by
  rw [classify_eq]
  split_ifs <;> rfl

/-! ### The completion -/

/-- An `ok` completion of a command that is not keyed clears BUSY and the three error fields and writes nothing else
(R93, R224). -/
theorem complete_unkeyed_ok (s : State) :
    s.complete false .ok = { s with busy := false, errCode := 0x00#8, errInfo0 := 0#64, errInfo1 := 0#64 } := rfl

/-- CLASSIFY reports the class of OPA and completes without error (R115). -/
theorem exec_classify (s : State) :
    exec .classify s = .next { s with
      result := (classify s.opa).report
      busy := false, errCode := 0x00#8, errInfo0 := 0#64, errInfo1 := 0#64 } := by
  rw [exec_eq, commandEnd, classifyCommand, Instr.keyed, complete_unkeyed_ok]

/-! ### The obligations -/

/-- Settles O11: `exec_classify` reports the class of OPA, and `report_classify` is the word of that class. -/
theorem classifyReportsClass : Obligations.ClassifyReportsClass := by
  refine ⟨by decide, fun s => ?_⟩
  rw [exec_classify, report_classify]

/-- Settles O8: the three cases of `classify_cases` exclude one another. -/
theorem classifyComparesTwoThresholds : Obligations.ClassifyComparesTwoThresholds := by
  intro v
  obtain ⟨hsmall, hc⟩ | ⟨hlow, hmedium, hc⟩ | ⟨hlarge, hc⟩ := classify_cases v <;>
    simp [hc] <;> omega

/-- Settles O9: the definitions of maskWidth and saltShift list these values. -/
theorem classFixesMaskWidthAndShift : Obligations.ClassFixesMaskWidthAndShift :=
  ⟨⟨rfl, rfl, rfl⟩, rfl, rfl, rfl⟩

end Sys2Proof.Machine
end

section
/-! SUPPORT and PROOFS. The values of mix stay below 2^56, and what MIX leaves in RESULT and in the trace registers
(41_mixer.md R121, R123-R126). -/
namespace Sys2Proof.Machine

/-! ### The values of mix -/

/-- The class of mixCore is the id's own (R123). -/
@[simp] theorem mixCore_cls (key id : Word) (rand : BitVec 5) : (mixCore key id rand).cls = classify id := rfl

/-- scrambled1 is the masked key over the id, whatever the nonce (R123). -/
@[simp] theorem mixCore_s1 (key id : Word) (rand : BitVec 5) :
    (mixCore key id rand).s1 = (key &&& (classify id).mask) ^^^ id := rfl

/-- Every class masks to at most 56 bits (R112, R114). -/
theorem SizeClass.toNat_mask_lt (c : SizeClass) : c.mask.toNat < 2 ^ 56 := by
  cases c <;> decide

/-- A class's boundary bit is at most bit 32 (R124). -/
theorem toNat_boundaryBit_lt (c : SizeClass) : (boundaryBit c).toNat < 2 ^ 56 := by
  cases c <;> decide

/-- maskedKey has no bit outside its class's mask (R123). -/
theorem toNat_maskedKey_lt (key : Word) (c : SizeClass) : (maskedKey key c).toNat < 2 ^ 56 := by
  rw [maskedKey, BitVec.toNat_and]
  exact Nat.and_lt_two_pow _ c.toNat_mask_lt

/-- The five bits of rand, shifted by at most 32, stay below bit 37 (R113, R122). -/
theorem toNat_shifted_rand_lt (rand : BitVec 5) (c : SizeClass) :
    (rand.setWidth 64 <<< c.saltShift).toNat < 2 ^ 56 := by
  have hrand := rand.isLt
  rw [BitVec.toNat_shiftLeft, BitVec.toNat_setWidth, Nat.shiftLeft_eq]
  cases c <;> simp only [SizeClass.saltShift] <;> omega

/-- The salt is below 2^56, as both of its parts are (R123). -/
theorem toNat_salt_lt (key : Word) (c : SizeClass) (rand : BitVec 5) : (salt key c rand).toNat < 2 ^ 56 := by
  rw [salt, BitVec.toNat_xor]
  exact Nat.xor_lt_two_pow (toNat_shifted_rand_lt rand c) (toNat_maskedKey_lt key c)

/-- For an id in the domain scrambled1 is below 2^56 (R123). -/
theorem toNat_mixCore_s1_lt {id : Word} (hid : id.toNat ≤ 0x00FFFFFFFFFFFFFF) (key : Word) (rand : BitVec 5) :
    (mixCore key id rand).s1.toNat < 2 ^ 56 := by
  rw [mixCore_s1, BitVec.toNat_xor]
  exact Nat.xor_lt_two_pow (toNat_maskedKey_lt key _) (by omega)

/-- For an id in the domain scrambled2, with its boundary bit where it pads, is below 2^56 (R123, R124). -/
theorem toNat_mixCore_s2_lt {id : Word} (hid : id.toNat ≤ 0x00FFFFFFFFFFFFFF) (key : Word) (rand : BitVec 5) :
    (mixCore key id rand).s2.toNat < 2 ^ 56 := by
  have hunpadded : ((mixCore key id rand).s1 ^^^ salt key (classify id) rand).toNat < 2 ^ 56 := by
    rw [BitVec.toNat_xor]
    exact Nat.xor_lt_two_pow (toNat_mixCore_s1_lt hid key rand) (toNat_salt_lt key _ rand)
  simp only [mixCore] at hunpadded ⊢
  split
  · rw [BitVec.toNat_or]
    exact Nat.or_lt_two_pow hunpadded (toNat_boundaryBit_lt _)
  · exact hunpadded

/-! ### The MixedValue -/

/-- Bits 63:8 of a MixedValue are scrambled2, when the shift by 8 truncates none of it (R121). -/
theorem mixedScrambled_mixedValue {s2 : Word} (h : s2.toNat < 2 ^ 56) (cb : BitVec 8) :
    mixedScrambled (mixedValue s2 cb) = s2 := by
  rw [mixedScrambled, mixedValue, BitVec.ushiftRight_or_distrib]
  have hcb : cb.setWidth 64 >>> 8 = 0#64 := by
    apply BitVec.eq_of_toNat_eq
    have hlt := cb.isLt
    rw [BitVec.toNat_ushiftRight, BitVec.toNat_setWidth, Nat.shiftRight_eq_div_pow, BitVec.toNat_zero]
    omega
  have hs2 : s2 <<< 8 >>> 8 = s2 := by
    apply BitVec.eq_of_toNat_eq
    rw [BitVec.toNat_ushiftRight, BitVec.toNat_shiftLeft, Nat.shiftRight_eq_div_pow, Nat.shiftLeft_eq]
    omega
  rw [hcb, hs2, BitVec.or_zero]

/-- The MixedValue of an id in the domain carries the scrambled2 of its trace point (R121, R126). -/
theorem mixedScrambled_mixCore {id : Word} (hid : id.toNat ≤ 0x00FFFFFFFFFFFFFF) (key : Word) (rand : BitVec 5) :
    mixedScrambled (mixCore key id rand).mixed = (mixCore key id rand).s2 :=
  mixedScrambled_mixedValue (toNat_mixCore_s2_lt hid key rand) _

/-! ### The command MIX -/

/-- MIX of an id in the domain draws, traces, writes the MixedValue to RESULT and completes without error (R125). -/
theorem exec_mix_of_le {s : State} (h : s.opa.toNat ≤ 0x00FFFFFFFFFFFFFF) :
    exec .mix s = .next
      ({ s.afterDraw.traceMix (mixCore s.key s.opa s.randDraw) with
          result := (mixCore s.key s.opa s.randDraw).mixed }.complete true .ok) := by
  obtain ⟨hlt, -⟩ | ⟨-, hstage⟩ := mixStage_cases s
  · exact absurd hlt (Nat.not_lt.mpr h)
  · rw [exec_eq, commandEnd, mixCommand, hstage, Instr.keyed]

/-- MIX of an id above the domain only completes, with DOMAIN (R125). -/
theorem exec_mix_of_lt {s : State} (h : 0x00FFFFFFFFFFFFFF < s.opa.toNat) :
    exec .mix s = .next (s.complete true (.domain s.opa)) := by
  obtain ⟨-, hstage⟩ | ⟨hle, -⟩ := mixStage_cases s
  · rw [exec_eq, commandEnd, mixCommand, hstage, Instr.keyed]
  · exact absurd h (Nat.not_lt.mpr hle)

/-! ### The obligations -/

/-- Settles O15: in the domain `traceMix` writes the stages of `mixCore` exactly when TRACE_EN = 1, and
`mixedScrambled_mixCore` finds scrambled2 in RESULT; above it the completion touches no trace register. -/
theorem mixTracePoints : Obligations.MixTracePoints := by
  intro s t hexec
  obtain hdomain | habove := le_or_gt s.opa.toNat 0x00FFFFFFFFFFFFFF
  · obtain rfl := Host.Outcome.next.inj ((exec_mix_of_le hdomain).symm.trans hexec)
    refine ⟨fun htrace _ => ?_, fun hoff => ?_⟩
    · simp [htrace, mixedScrambled_mixCore hdomain]
    · have htrace : s.traceEn = false := hoff.resolve_right (Nat.not_lt.mpr hdomain)
      simp [htrace]
  · obtain rfl := Host.Outcome.next.inj ((exec_mix_of_lt habove).symm.trans hexec)
    exact ⟨fun _ hdomain => absurd habove (Nat.not_lt.mpr hdomain), fun _ => ⟨rfl, rfl, rfl, rfl⟩⟩

end Sys2Proof.Machine
end

section
/-! PROOFS. The decoder and the encoder are inverse to each other, and the bytes of an access are those of its word
(30_encoding.md R90, R92, R95; 20_memory.md R63). -/
namespace Sys2Proof

/-! ### Command words -/

/-- The laws of a command's word hold for each of the eight. -/
theorem commandWord (i : Instr) : Laws.CommandWord.Statement i :=
  match i with
  | .mix => Laws.CommandWord.mix
  | .unmix => Laws.CommandWord.unmix
  | .classify => Laws.CommandWord.classify
  | .codecNew => Laws.CommandWord.codecNew
  | .codecEncode => Laws.CommandWord.codecEncode
  | .codecDecode => Laws.CommandWord.codecDecode
  | .encode => Laws.CommandWord.encode
  | .decode => Laws.CommandWord.decode

/-- The decoder reads a command back from its own word (R95). -/
theorem decode_encode (i : Instr) : decode (encode i) = .ok i := by
  obtain ⟨-, -, hdecode, -⟩ := commandWord i
  exact hdecode

/-- The word of a command is its opcode, zero-extended (R92). -/
theorem toNat_encode (i : Instr) : (encode i).toNat = i.opcode.toNat := by
  obtain ⟨hword, -⟩ := commandWord i
  exact hword

/-- The keyed commands are the four of R98. -/
theorem keyed_iff (i : Instr) : i.keyed = true ↔ i ∈ [Instr.mix, .unmix, .encode, .decode] := by
  obtain ⟨-, -, -, hkeyed⟩ := commandWord i
  exact hkeyed

/-- A word that decodes is the word of its command: RSV is 0 and OPC is the opcode (R90, R92). -/
theorem eq_encode_of_decode {w : Word} {i : Instr} (h : decode w = .ok i) : w = encode i := by
  obtain ⟨hrsv, hopc⟩ := fields_of_decode h
  have hhigh : w.toNat / 256 = 0 := by rw [← toNat_rsvField, hrsv]; rfl
  have hlow : w.toNat % 256 = i.opcode.toNat := by rw [← toNat_opcField, hopc]
  apply BitVec.eq_of_toNat_eq
  rw [toNat_encode]
  omega

/-! ### Bytes -/

/-- Bit j of byte k of an access is bit 8k+j of its word (R63). -/
theorem getLsbD_byteLane (w : Word) (k : Nat) {j : Nat} (hj : j < 8) :
    (byteLane w k).getLsbD j = w.getLsbD (8 * k + j) := by
  simp [byteLane, hj]

/-- The eight lanes of a word, lowest offset first, make up that word (R63). -/
theorem wordOfBytes_byteLane (w : Word) :
    wordOfBytes (byteLane w 0) (byteLane w 1) (byteLane w 2) (byteLane w 3)
      (byteLane w 4) (byteLane w 5) (byteLane w 6) (byteLane w 7) = w := by
  unfold wordOfBytes byteLane
  repeat rw [BitVec.extractLsb'_append_extractLsb'_eq_extractLsb' (by rfl)]
  exact BitVec.extractLsb'_eq_self

/-! ### The obligations -/

/-- Settles O1: `decode_encode` is one direction, `eq_encode_of_decode` the other. -/
theorem decodeInvertsEncode : Obligations.DecodeInvertsEncode := by
  intro w i
  refine ⟨eq_encode_of_decode, ?_⟩
  rintro rfl
  exact decode_encode i

/-- Settles O2: ten fixed words, each run through the decoder. -/
theorem writtenWordsDecode : Obligations.WrittenWordsDecode := by
  unfold Obligations.WrittenWordsDecode
  decide

/-- Settles O3: the lanes are consecutive bit ranges of the word, so the word is their concatenation. -/
theorem bytesAreLittleEndian : Obligations.BytesAreLittleEndian :=
  ⟨fun w k _ hj => getLsbD_byteLane w k hj, wordOfBytes_byteLane⟩

end Sys2Proof
end

section
/-! SUPPORT and PROOFS. What a command's pseudocode may write and what it leaves alone, on success and on an error
(30_encoding.md R93, R98; 60_exceptions.md R222, R224, R225). -/
namespace Sys2Proof.Machine

/-! ### The trace points as record updates -/

/-- The mix trace points write the four trace registers with TRACE_EN = 1 and nothing else (R126). -/
theorem traceMix_eq (s : State) (m : MixStages) :
    s.traceMix m = { s with
      traceClass := if s.traceEn then m.cls.code else s.traceClass
      traceS1 := if s.traceEn then m.s1 else s.traceS1
      traceS2 := if s.traceEn then m.s2 else s.traceS2
      traceFinal := if s.traceEn then m.mixed else s.traceFinal } := by
  ext1 <;> simp

/-- The first unmix trace point writes TRACE_CLASS and TRACE_S1 with TRACE_EN = 1 (R130). -/
theorem traceUnmixEntry_eq (s : State) (m : Word) :
    s.traceUnmixEntry m = { s with
      traceClass := if s.traceEn then (unmixClass m).code else s.traceClass
      traceS1 := if s.traceEn then unmixS2 m else s.traceS1 } := by
  ext1 <;> simp

/-- The second unmix trace point writes TRACE_S2 with TRACE_EN = 1 (R130). -/
theorem traceUnmixUnsalted_eq (s : State) (m : Word) :
    s.traceUnmixUnsalted m =
      { s with traceS2 := if s.traceEn then unmixUnsalted s.key m else s.traceS2 } := by
  ext1 <;> simp

/-- The last unmix trace point writes TRACE_FINAL with TRACE_EN = 1 (R130). -/
theorem traceUnmixFinal_eq (s : State) (m : Word) :
    s.traceUnmixFinal m =
      { s with traceFinal := if s.traceEn then unmixId s.key m else s.traceFinal } := by
  ext1 <;> simp

/-- What a trace point leaves in TRACE_CLASS: the value it had, or the code of a class (R126, R130). -/
theorem traceClass_kept_or_code (traced : Bool) (c : SizeClass) (old : BitVec 2) :
    (if traced then c.code else old) = old ∨ ∃ d : SizeClass, (if traced then c.code else old) = d.code := by
  cases traced
  · exact .inl rfl
  · exact .inr ⟨c, rfl⟩

/-! ### Frames -/

/-- `t` is `s` but for the trace registers, and `s` itself with TRACE_EN = 0. -/
def State.tracedOnly (s t : State) : Prop :=
  (∃ traceClass traceS1 traceS2 traceFinal,
    (traceClass = s.traceClass ∨ ∃ c : SizeClass, traceClass = c.code)
    ∧ t = { s with traceClass := traceClass, traceS1 := traceS1, traceS2 := traceS2, traceFinal := traceFinal })
  ∧ (s.traceEn = false → t = s)

/-- `t` is `s` but for what a command that commits no codec may write: RESULT, STR_LEN, STR, where a codec writes a
value's string, the trace registers and the count of draws. -/
def State.outputsOnly (s t : State) : Prop :=
  ∃ result strLen str traceClass traceS1 traceS2 traceFinal freeCount,
    (str = s.str ∨ (s.codecValid = true ∧ ∃ v : Word, str = (s.writeString (encodeDigits s.alphabet v)).str))
    ∧ (traceClass = s.traceClass ∨ ∃ c : SizeClass, traceClass = c.code)
    ∧ t = { s with
      result := result, strLen := strLen, str := str, traceClass := traceClass, traceS1 := traceS1
      traceS2 := traceS2, traceFinal := traceFinal, freeCount := freeCount }

theorem State.tracedOnly_refl (s : State) : s.tracedOnly s := ⟨⟨_, _, _, _, .inl rfl, rfl⟩, fun _ => rfl⟩

theorem State.tracedOnly.outputsOnly {s t : State} (h : s.tracedOnly t) : s.outputsOnly t := by
  obtain ⟨⟨_, _, _, _, hclass, rfl⟩, -⟩ := h
  exact ⟨_, _, _, _, _, _, _, _, .inl rfl, hclass, rfl⟩

/-- RESULT is one of the outputs. -/
theorem State.outputsOnly.setResult {s t : State} (h : s.outputsOnly t) (v : Word) :
    s.outputsOnly { t with result := v } := by
  obtain ⟨_, _, _, _, _, _, _, _, hstr, hclass, rfl⟩ := h
  exact ⟨_, _, _, _, _, _, _, _, hstr, hclass, rfl⟩

/-- STR and STR_LEN are outputs, written with a codec. -/
theorem writeString_outputsOnly {s : State} (hv : s.codecValid = true) (v : Word) :
    s.outputsOnly (s.writeString (encodeDigits s.alphabet v)) :=
  ⟨_, _, _, _, _, _, _, _, .inr ⟨hv, v, rfl⟩, .inl rfl, rfl⟩

/-- The mix stage of an id in the domain writes trace registers and counts a draw (R123, R126). -/
theorem mixed_outputsOnly (s : State) (m : MixStages) : s.outputsOnly (s.afterDraw.traceMix m) := by
  rw [traceMix_eq]
  exact ⟨_, _, _, _, _, _, _, _, .inl rfl, traceClass_kept_or_code _ _ _, rfl⟩

/-- A value's string may be written after the mix stage (R200). -/
theorem mixed_writeString_outputsOnly {s : State} (hv : s.codecValid = true) (m : MixStages) (v : Word) :
    s.outputsOnly ((s.afterDraw.traceMix m).writeString (encodeDigits s.alphabet v)) := by
  rw [traceMix_eq]
  exact ⟨_, _, _, _, _, _, _, _, .inr ⟨hv, v, rfl⟩, traceClass_kept_or_code _ _ _, rfl⟩

/-- The unmix stage writes trace registers only (R130). -/
theorem unmixStage_tracedOnly (s : State) (m : Word) : s.tracedOnly (unmixStage s m).1 := by
  obtain ⟨-, h⟩ | ⟨-, -, h⟩ | ⟨-, -, h⟩ := unmixStage_cases s m <;>
    simp only [h, traceUnmixEntry_eq, traceUnmixUnsalted_eq, traceUnmixFinal_eq] <;>
    exact ⟨⟨_, _, _, _, traceClass_kept_or_code _ _ _, rfl⟩, fun hoff => by ext1 <;> simp [hoff]⟩

/-! ### Errors -/

/-- Code 0x00 is that of `ok` alone (R221). -/
theorem Completion.code_eq_zero_iff (c : Completion) : c.code = 0x00#8 ↔ c = .ok := by
  cases c <;> simp [Completion.code]

/-- The unmix stage answers an id or an error, and has written trace registers only (R127, R130). -/
theorem unmixStage_id_or_error (s : State) (m : Word) :
    (∃ t id, unmixStage s m = (t, .ok id) ∧ s.tracedOnly t)
    ∨ ∃ t e, unmixStage s m = (t, .error e) ∧ e ≠ .ok ∧ s.tracedOnly t := by
  have htrace := unmixStage_tracedOnly s m
  obtain ⟨-, h⟩ | ⟨-, -, h⟩ | ⟨-, -, h⟩ := unmixStage_cases s m <;> rw [h] at htrace
  · exact .inr ⟨_, _, h, nofun, htrace⟩
  · exact .inr ⟨_, _, h, nofun, htrace⟩
  · exact .inl ⟨_, _, h, htrace⟩

/-- The loop of a decode reports `ok` as no error (R165). -/
theorem decodeLoop_error_ne_ok {alpha str : List CharCode} {i e : Nat} {c : Completion}
    (h : decodeLoop alpha i e str = .error c) : c ≠ .ok := by
  induction str generalizing i e with
  | nil => cases h
  | cons ch rest ih =>
    unfold decodeLoop at h
    split at h
    · cases h
      simp
    · exact ih h

/-- The codec stage of a decode reports `ok` as no error (R165, R166). -/
theorem decodeStage_error_ne_ok {s : State} {c : Completion} (h : s.decodeStage = .error c) : c ≠ .ok := by
  obtain ⟨-, hstage⟩ | ⟨-, -, hstage⟩ | ⟨-, -, hstage⟩ := decodeStage_cases s <;> rw [hstage] at h
  · cases h
    simp
  · cases h
    simp
  · unfold decodeString at h
    split at h
    · next hloop =>
      cases h
      exact decodeLoop_error_ne_ok hloop
    · split at h <;> cases h
      simp

/-! ### What a command can do -/

/-- What a command's pseudocode can do (R93): CODEC_NEW commits the candidate; or the command succeeds and writes
outputs; or it ends in an error and has written at most trace registers (R224). -/
theorem commandEnd_cases (i : Instr) (s : State) :
    (i = .codecNew ∧ 2 ≤ s.alphaStageLen.toNat ∧ s.alphaStageLen.toNat ≤ Config.alphaMax
      ∧ firstRepeat [] 0 s.candidate = none ∧ commandEnd i s = (s.commitCodec, .ok))
    ∨ ((commandEnd i s).2 = .ok ∧ s.outputsOnly (commandEnd i s).1)
    ∨ ((commandEnd i s).2 ≠ .ok ∧ s.tracedOnly (commandEnd i s).1) := by
  have hsame := s.tracedOnly_refl
  cases i with
  | mix =>
    obtain ⟨-, h⟩ | ⟨-, h⟩ := mixStage_cases s <;> rw [commandEnd, mixCommand, h]
    · exact .inr (.inr ⟨nofun, hsame⟩)
    · exact .inr (.inl ⟨rfl, (mixed_outputsOnly s _).setResult _⟩)
  | unmix =>
    obtain ⟨t, id, h, htrace⟩ | ⟨t, e, h, he, htrace⟩ := unmixStage_id_or_error s s.opa <;>
      rw [commandEnd, unmixCommand, h]
    · exact .inr (.inl ⟨rfl, htrace.outputsOnly.setResult _⟩)
    · exact .inr (.inr ⟨he, htrace⟩)
  | classify => exact .inr (.inl ⟨rfl, hsame.outputsOnly.setResult _⟩)
  | codecNew =>
    obtain ⟨-, h⟩ | ⟨-, _, _, -, h⟩ | ⟨-, -, h⟩ | ⟨hmin, hmax, hdistinct, h⟩ := codecNewCommand_cases s <;>
      rw [commandEnd, h]
    · exact .inr (.inr ⟨nofun, hsame⟩)
    · exact .inr (.inr ⟨nofun, hsame⟩)
    · exact .inr (.inr ⟨nofun, hsame⟩)
    · exact .inl ⟨rfl, hmin, hmax, hdistinct, rfl⟩
  | codecEncode =>
    rw [commandEnd, codecEncodeCommand]
    split
    · next hv => exact .inr (.inl ⟨rfl, writeString_outputsOnly hv _⟩)
    · exact .inr (.inr ⟨nofun, hsame⟩)
  | codecDecode =>
    rw [commandEnd, codecDecodeCommand]
    split
    · exact .inr (.inl ⟨rfl, hsame.outputsOnly.setResult _⟩)
    · next h => exact .inr (.inr ⟨decodeStage_error_ne_ok h, hsame⟩)
  | encode =>
    rw [commandEnd, encodeCommand]
    split
    · next hv =>
      obtain ⟨-, h⟩ | ⟨-, h⟩ := mixStage_cases s <;> rw [h]
      · exact .inr (.inr ⟨nofun, hsame⟩)
      · exact .inr (.inl ⟨rfl, (mixed_writeString_outputsOnly hv _ _).setResult _⟩)
    · exact .inr (.inr ⟨nofun, hsame⟩)
  | decode =>
    rw [commandEnd, decodeCommand]
    split
    · next h => exact .inr (.inr ⟨decodeStage_error_ne_ok h, hsame⟩)
    · next v _ =>
      obtain ⟨t, id, h, htrace⟩ | ⟨t, e, h, he, htrace⟩ := unmixStage_id_or_error s v <;> rw [h]
      · exact .inr (.inl ⟨rfl, htrace.outputsOnly.setResult _⟩)
      · exact .inr (.inr ⟨he, htrace⟩)

/-- A command's pseudocode commits the codec or writes outputs alone. -/
theorem commandEnd_commits_or_outputsOnly (i : Instr) (s : State) :
    (i = .codecNew ∧ commandEnd i s = (s.commitCodec, .ok)) ∨ s.outputsOnly (commandEnd i s).1 := by
  obtain ⟨hi, -, -, -, hcommit⟩ | ⟨-, hout⟩ | ⟨-, htrace⟩ := commandEnd_cases i s
  · exact .inl ⟨hi, hcommit⟩
  · exact .inr hout
  · exact .inr htrace.outputsOnly

/-- A command that ends in an error has written at most trace registers (R224). -/
theorem commandEnd_tracedOnly {i : Instr} {s : State} (herr : (commandEnd i s).2 ≠ .ok) :
    s.tracedOnly (commandEnd i s).1 := by
  obtain ⟨-, -, -, -, hcommit⟩ | ⟨hok, -⟩ | ⟨-, htrace⟩ := commandEnd_cases i s
  · exact absurd (congrArg Prod.snd hcommit) herr
  · exact absurd hok herr
  · exact htrace

/-! ### The obligations -/

/-- Settles O6: the completion writes the record, KEY and BUSY; the pseudocode before it either commits the codec or
writes outputs, and none of the registers named is among them. -/
theorem everyCommandCompletes : Obligations.EveryCommandCompletes := by
  intro i s
  refine ⟨_, (commandEnd i s).2, exec_eq i s, rfl, rfl, rfl, rfl, ?_⟩
  simp only [← keyed_iff]
  obtain ⟨rfl, h⟩ | ⟨_, _, _, _, _, _, _, _, -, -, h⟩ := commandEnd_commits_or_outputsOnly i s
  · simp [h, Instr.keyed]
  · simp [h]

/-- Settles O7: with an error the pseudocode has written trace registers only, and those not with TRACE_EN = 0. -/
theorem errorCompletionWritesNoResult : Obligations.ErrorCompletionWritesNoResult := by
  refine ⟨fun i s t hexec herr => ?_, fun i s t hi hexec => ?_⟩
  · obtain rfl := Host.Outcome.next.inj ((exec_eq i s).symm.trans hexec)
    have hne : (commandEnd i s).2 ≠ .ok := fun hok => herr ((Completion.code_eq_zero_iff _).mpr hok)
    obtain ⟨⟨_, _, _, _, -, hframe⟩, hoff⟩ := commandEnd_tracedOnly hne
    refine ⟨?_, fun htrace => ?_⟩
    · rw [hframe]
      rfl
    · rw [hoff htrace]
      exact ⟨rfl, rfl, rfl, rfl⟩
  · obtain rfl := Host.Outcome.next.inj ((exec_eq i s).symm.trans hexec)
    obtain rfl | rfl := hi
    · obtain ⟨-, h⟩ | ⟨-, _, _, -, h⟩ | ⟨-, -, h⟩ | ⟨-, -, -, h⟩ := codecNewCommand_cases s <;>
        simp [commandEnd, h]
    · cases hv : s.codecValid <;> simp [commandEnd, codecEncodeCommand, hv]

/-- Settles O27: each of the four commands asks CODEC_VALID first, so its pseudocode answers NO_CODEC with the state as
it was. -/
theorem noCodecIsCheckedFirst : Obligations.NoCodecIsCheckedFirst := by
  intro s hv
  have hinvalid : ¬ s.codecValid = true := by simp [hv]
  have hstage : s.decodeStage = .error .noCodec := if_neg hinvalid
  refine ⟨?_, ?_, ?_, ?_⟩
  · rw [exec_eq, commandEnd, codecEncodeCommand, if_neg hinvalid]
    rfl
  · rw [exec_eq, commandEnd, codecDecodeCommand, hstage]
    rfl
  · rw [exec_eq, commandEnd, encodeCommand, if_neg hinvalid]
    rfl
  · rw [exec_eq, commandEnd, decodeCommand, hstage]
    rfl

end Sys2Proof.Machine
end

section
/-! SUPPORT and PROOFS. Candidate and committed alphabets, and what CODEC_NEW does with a candidate (42_codec.md R160,
R161). -/
namespace Sys2Proof.Machine

/-! ### Distinct characters -/

/-- `distinctChars` is the library's `Nodup`. -/
theorem distinctChars_iff_nodup (cs : List CharCode) : distinctChars cs = true ↔ cs.Nodup := by
  induction cs with
  | nil => simp [distinctChars]
  | cons c rest ih => simp [distinctChars, ih]

/-- The first n entries of a table are distinct when no two of them are equal. -/
theorem Table.nodup_entries_iff (t : Table) (n : Nat) :
    (t.entries n).Nodup ↔ ∀ i j : Nat, i < j → j < n → t.read i ≠ t.read j := by
  simp only [List.Nodup, List.pairwise_iff_getElem, Table.length_entries, Table.getElem_entries]
  exact ⟨fun h i j hij hj => h i j (hij.trans hj) hj hij, fun h i j _ hj hij => h i j hij hj⟩

/-- Fewer entries of a table are the first of more. -/
theorem Table.take_entries (t : Table) {j n : Nat} (h : j ≤ n) : (t.entries n).take j = t.entries j := by
  rw [Table.entries, ← List.map_take, List.take_range, Nat.min_eq_left h, Table.entries]

/-- The entries of a table, cut at one of them. -/
theorem Table.entries_eq_append (t : Table) {j n : Nat} (h : j < n) :
    t.entries n = t.entries j ++ t.read j :: (t.entries n).drop (j + 1) := by
  have hj : j < (t.entries n).length := by simpa using h
  rw [← Table.getElem_entries t n j hj, ← List.drop_eq_getElem_cons hj, ← t.take_entries h.le, List.take_append_drop]

/-! ### The duplicate check -/

/-- No repeat is found exactly when the characters are distinct and none was seen before. -/
theorem firstRepeat_eq_none_iff (seen : List CharCode) (j : Nat) (cs : List CharCode) :
    firstRepeat seen j cs = none ↔ cs.Nodup ∧ ∀ c ∈ cs, c ∉ seen := by
  induction cs generalizing seen j with
  | nil => simp [firstRepeat]
  | cons c rest ih =>
    by_cases hc : c ∈ seen
    · simp [firstRepeat, hc]
    · simp only [firstRepeat, hc, if_false, ih, List.nodup_cons, List.mem_cons, not_or, forall_eq_or_imp,
        not_false_eq_true, true_and]
      exact ⟨fun ⟨hnodup, hfresh⟩ => ⟨⟨fun hmem => (hfresh c hmem).1 rfl, hnodup⟩, fun d hd => (hfresh d hd).2⟩,
        fun ⟨⟨hmem, hnodup⟩, hfresh⟩ => ⟨hnodup, fun d hd => ⟨fun hdc => hmem (hdc ▸ hd), hfresh d hd⟩⟩⟩

/-- After distinct characters that were not seen before, a repeated one is the first repeat. -/
theorem firstRepeat_append {seen xs : List CharCode} {c : CharCode} (hnodup : xs.Nodup) (hfresh : ∀ x ∈ xs, x ∉ seen)
    (hc : c ∈ seen ∨ c ∈ xs) (j : Nat) (ys : List CharCode) :
    firstRepeat seen j (xs ++ c :: ys) = some (j + xs.length, c) := by
  induction xs generalizing seen j with
  | nil => simp_all [firstRepeat]
  | cons x rest ih =>
    obtain ⟨hx, hrest⟩ := List.nodup_cons.mp hnodup
    obtain ⟨hxseen, hfresh⟩ := List.forall_mem_cons.mp hfresh
    have hfresh' : ∀ y ∈ rest, y ∉ x :: seen := fun y hy hmem => by
      obtain rfl | hmem := List.mem_cons.mp hmem
      · exact hx hy
      · exact hfresh y hy hmem
    have hc' : c ∈ x :: seen ∨ c ∈ rest := by
      simp only [List.mem_cons] at hc ⊢
      tauto
    rw [List.cons_append, firstRepeat, if_neg hxseen, ih hrest hfresh' hc', List.length_cons, Nat.add_right_comm,
      Nat.add_assoc]

/-- The candidate has no repeat exactly when no two of its entries are equal (R161). -/
theorem firstRepeat_candidate_eq_none_iff (s : State) :
    firstRepeat [] 0 s.candidate = none
      ↔ ∀ i j : Nat, i < j → j < s.alphaStageLen.toNat → s.alphaStage.read i ≠ s.alphaStage.read j := by
  simp [firstRepeat_eq_none_iff, State.candidate, Table.nodup_entries_iff]

/-- The candidate's first repeat is at the smallest index whose character occurs earlier (R161). -/
theorem firstRepeat_candidate_eq_some {s : State} {i j : Nat} (hij : i < j) (hj : j < s.alphaStageLen.toNat)
    (hrepeat : s.alphaStage.read i = s.alphaStage.read j)
    (hbefore : ∀ k l : Nat, k < l → l < j → s.alphaStage.read k ≠ s.alphaStage.read l) :
    firstRepeat [] 0 s.candidate = some (j, s.alphaStage.read j) := by
  have hnodup : (s.alphaStage.entries j).Nodup := (Table.nodup_entries_iff _ _).mpr hbefore
  have hmem : s.alphaStage.read j ∈ s.alphaStage.entries j :=
    List.mem_map.mpr ⟨i, List.mem_range.mpr hij, hrepeat⟩
  rw [State.candidate, Table.entries_eq_append _ hj, firstRepeat_append hnodup (by simp) (.inr hmem),
    Table.length_entries, Nat.zero_add]

/-! ### The commit -/

/-- A commit gives CODEC_TAB the candidate's characters (R161). -/
theorem commitCodec_read {s : State} (hmax : s.alphaStageLen.toNat ≤ Config.alphaMax) {i : Nat}
    (hi : i < s.alphaStageLen.toNat) : s.commitCodec.codecTab.read i = s.alphaStage.read i := by
  rw [State.commitCodec, Table.read_tabulate, if_pos ⟨Nat.zero_le i, by omega⟩, if_pos hi]

/-- After a commit the committed alphabet is the candidate (R161). -/
theorem commitCodec_alphabet {s : State} (hmax : s.alphaStageLen.toNat ≤ Config.alphaMax) :
    s.commitCodec.alphabet = s.candidate :=
  List.map_congr_left fun _ hi => commitCodec_read hmax (List.mem_range.mp hi)

/-- CODEC_NEW of a candidate above ALPHA_MAX (R161). -/
theorem codecNewCommand_of_long {s : State} (hlong : Config.alphaMax < s.alphaStageLen.toNat) :
    codecNewCommand s = (s, .alphabetTooLong s.alphaStageLen) := if_pos hlong

/-- CODEC_NEW of a candidate without repeat, of 2 to ALPHA_MAX characters (R161). -/
theorem codecNewCommand_of_distinct {s : State} (hmin : 2 ≤ s.alphaStageLen.toNat)
    (hmax : s.alphaStageLen.toNat ≤ Config.alphaMax) (hdistinct : firstRepeat [] 0 s.candidate = none) :
    codecNewCommand s = (s.commitCodec, .ok) := by
  rw [codecNewCommand, if_neg (Nat.not_lt.mpr hmax), hdistinct]
  exact if_neg (Nat.not_lt.mpr hmin)

/-- CODEC_NEW of a candidate with a repeat (R161). -/
theorem codecNewCommand_of_repeat {s : State} (hmax : s.alphaStageLen.toNat ≤ Config.alphaMax) {j : Nat} {c : CharCode}
    (hrepeat : firstRepeat [] 0 s.candidate = some (j, c)) : codecNewCommand s = (s, .duplicateChar j c) := by
  rw [codecNewCommand, if_neg (Nat.not_lt.mpr hmax), hrepeat]

/-- CODEC_NEW of a candidate of fewer than two characters, which has no repeat (R161). -/
theorem codecNewCommand_of_short {s : State} (hshort : s.alphaStageLen.toNat < 2) :
    codecNewCommand s = (s, .alphabetTooShort s.alphaStageLen) := by
  have hdistinct : firstRepeat [] 0 s.candidate = none :=
    (firstRepeat_candidate_eq_none_iff s).mpr fun i j _ _ => by omega
  have hmax : ¬ Config.alphaMax < s.alphaStageLen.toNat := by
    simp only [Config.alphaMax]
    omega
  rw [codecNewCommand, if_neg hmax, hdistinct]
  exact if_pos hshort

/-! ### The obligations -/

/-- Settles O24: such a candidate passes the three checks, and `commitCodec_read` is what the commit leaves in
CODEC_TAB. -/
theorem codecNewCommitsAlphabet : Obligations.CodecNewCommitsAlphabet := by
  intro s hmin hmax hdistinct
  have hcommit := codecNewCommand_of_distinct hmin hmax ((firstRepeat_candidate_eq_none_iff s).mpr hdistinct)
  refine ⟨s.commitCodec.complete false .ok, ?_, rfl, fun i hi => commitCodec_read hmax hi⟩
  rw [exec_eq, commandEnd, hcommit, Instr.keyed]

/-- Settles O25: the length is checked first, then the duplicates, and a candidate of fewer than two characters has
none. -/
theorem codecNewErrorsInOrder : Obligations.CodecNewErrorsInOrder := by
  intro s
  refine ⟨fun hlong => ?_, fun i j hmax hij hj hrepeat hbefore => ?_, fun hshort => ?_⟩
  · rw [exec_eq, commandEnd, codecNewCommand_of_long hlong]
    rfl
  · rw [exec_eq, commandEnd, codecNewCommand_of_repeat hmax (firstRepeat_candidate_eq_some hij hj hrepeat hbefore)]
    rfl
  · rw [exec_eq, commandEnd, codecNewCommand_of_short hshort]
    rfl

end Sys2Proof.Machine
end

section
/-! SUPPORT and PROOFS. The digits of a value in base N, and what CODEC_ENCODE writes (42_codec.md R163, R164). -/
namespace Sys2Proof.Machine

/-! ### The committed alphabet -/

/-- The codec's invariant, part by part (R37, R160). -/
theorem codecWf_iff (s : State) :
    s.codecWf = true ↔
      (s.codecLen = 0#64 ∨ (2 ≤ s.codecLen.toNat ∧ s.codecLen.toNat ≤ Config.alphaMax))
      ∧ s.codecValid = decide (2 ≤ s.codecLen.toNat) ∧ s.alphabet.Nodup := by
  simp [State.codecWf, distinctChars_iff_nodup, and_assoc]

/-- A committed alphabet has 2 to ALPHA_MAX characters, no two of them equal (R37, R160). -/
theorem committed_of_codecWf {s : State} (hwf : s.codecWf = true) (hv : s.codecValid = true) :
    2 ≤ s.codecLen.toNat ∧ s.codecLen.toNat ≤ Config.alphaMax ∧ s.alphabet.Nodup := by
  obtain ⟨hlen, hvalid, hnodup⟩ := (codecWf_iff s).mp hwf
  have hmin : 2 ≤ s.codecLen.toNat := by simpa [hv] using hvalid
  obtain hzero | ⟨-, hmax⟩ := hlen
  · simp [hzero] at hmin
  · exact ⟨hmin, hmax, hnodup⟩

@[simp] theorem length_alphabet (s : State) : s.alphabet.length = s.codecLen.toNat := s.codecTab.length_entries _

/-- The character of a digit below N is the table's entry (R160). -/
theorem charOf_alphabet {s : State} {d : Nat} (hd : d < s.codecLen.toNat) :
    charOf s.alphabet d = s.codecTab.read d := by
  have hlen : d < s.alphabet.length := by simpa using hd
  rw [charOf, List.getElem?_eq_getElem hlen, Option.getD_some]
  exact Table.getElem_entries _ _ _ hlen

/-! ### Digits -/

/-- The digit values of `v` in base `n`, most significant first; the value 0 is the single digit 0 (R163). -/
def valueDigits (n v : Nat) : List Nat := if v = 0 then [0] else (Nat.digits n v).reverse

/-- The loop of R163 prepends the library's digits, most significant first, when its rounds are enough. -/
theorem digitsLoop_eq {n : Nat} (hn : 1 < n) {fuel v : Nat} (hv : v < n ^ fuel) (ds : List Nat) :
    digitsLoop n fuel v ds = (Nat.digits n v).reverse ++ ds := by
  induction fuel generalizing v ds with
  | zero =>
    obtain rfl : v = 0 := by simpa using hv
    simp [digitsLoop]
  | succ fuel ih =>
    rw [digitsLoop]
    split
    · next h => simp [h]
    · next h =>
      have hdiv : v / n < n ^ fuel := Nat.div_lt_of_lt_mul (by rwa [← Nat.pow_succ'])
      rw [ih hdiv, Nat.digits_eq_cons_digits_div hn h]
      simp

/-- 64 rounds are enough for a 64-bit value and a base of at least 2 (R163). -/
theorem toNat_lt_pow_64 {n : Nat} (hn : 2 ≤ n) (v : Word) : v.toNat < n ^ 64 :=
  lt_of_lt_of_le v.isLt (Nat.pow_le_pow_left hn 64)

/-- encodeDigits writes each digit value as its character (R163). -/
theorem encodeDigits_eq {alpha : List CharCode} (hn : 2 ≤ alpha.length) (v : Word) :
    encodeDigits alpha v = (valueDigits alpha.length v.toNat).map (charOf alpha) := by
  have hzero : v = 0#64 ↔ v.toNat = 0 := by simp [← BitVec.toNat_inj]
  simp only [encodeDigits, valueDigits, hzero]
  split
  · rfl
  · rw [digitsLoop_eq hn (toNat_lt_pow_64 hn v), List.append_nil]

/-- A list of digits is the library's `Nat.ofDigits` read from its other end. -/
theorem positional_eq_ofDigits (n : Nat) (ds : List Nat) : positional n ds = Nat.ofDigits n ds.reverse := by
  rw [Nat.ofDigits_eq_foldr, List.foldr_reverse, positional]
  congr
  funext e d
  rw [Nat.cast_id, Nat.mul_comm, Nat.add_comm]

/-- The digits of a value stand for it (R163). -/
theorem positional_valueDigits (n v : Nat) : positional n (valueDigits n v) = v := by
  unfold valueDigits
  split
  · next h => simp [positional, h]
  · rw [positional_eq_ofDigits, List.reverse_reverse, Nat.ofDigits_digits]

/-- A digit is below the base (R163). -/
theorem lt_of_mem_valueDigits {n v d : Nat} (hn : 2 ≤ n) (hd : d ∈ valueDigits n v) : d < n := by
  unfold valueDigits at hd
  split at hd
  · simp only [List.mem_singleton] at hd
    omega
  · exact Nat.digits_lt_base hn (List.mem_reverse.mp hd)

/-- A 64-bit value has 1 to 64 digits (R163). -/
theorem length_valueDigits {n : Nat} (hn : 2 ≤ n) (v : Word) :
    1 ≤ (valueDigits n v.toNat).length ∧ (valueDigits n v.toNat).length ≤ 64 := by
  unfold valueDigits
  split
  · simp
  · next h =>
    rw [List.length_reverse]
    exact ⟨List.length_pos_iff.mpr (Nat.digits_ne_nil_iff_ne_zero.mpr h),
      (Nat.digits_length_le_iff hn _).mpr (toNat_lt_pow_64 hn v)⟩

/-- No value but 0 starts with digit 0 (R163). -/
theorem head?_valueDigits_ne_zero (n : Nat) {v : Nat} (hv : v ≠ 0) : (valueDigits n v).head? ≠ some 0 := by
  have hne : Nat.digits n v ≠ [] := Nat.digits_ne_nil_iff_ne_zero.mpr hv
  rw [valueDigits, if_neg hv, List.head?_reverse, List.getLast?_eq_some_getLast hne]
  simpa using Nat.getLast_digit_ne_zero n hv

/-! ### The string written -/

/-- A string written to STR from entry 0 on: its own characters, and beyond its end the entries as before (R164). -/
theorem read_writeString (s : State) (ds : List CharCode) (i : Nat) :
    (s.writeString ds).str.read i = if h : i < ds.length then ds[i] else s.str.read i := by
  rw [State.writeString, Table.read_writeFrom]
  by_cases h : i < ds.length <;> simp [h]

section encoded
variable {s : State} (hmin : 2 ≤ s.codecLen.toNat) (v : Word)
include hmin

/-- One character per digit. -/
theorem length_encodeDigits :
    (encodeDigits s.alphabet v).length = (valueDigits s.codecLen.toNat v.toNat).length := by
  rw [encodeDigits_eq (by simpa using hmin), List.length_map, length_alphabet]

/-- A value's string in STR holds the characters of its digits (R164). -/
theorem read_encoded {i : Nat} (hi : i < (valueDigits s.codecLen.toNat v.toNat).length) :
    (s.writeString (encodeDigits s.alphabet v)).str.read i
      = s.codecTab.read (valueDigits s.codecLen.toNat v.toNat)[i] := by
  rw [read_writeString, dif_pos (by rwa [length_encodeDigits hmin])]
  simp only [encodeDigits_eq (alpha := s.alphabet) (by simpa using hmin), List.getElem_map, length_alphabet]
  exact charOf_alphabet (lt_of_mem_valueDigits hmin (List.getElem_mem hi))

/-- Beyond a value's string STR is left alone (R164). -/
theorem read_beyond_encoded {i : Nat} (hi : (valueDigits s.codecLen.toNat v.toNat).length ≤ i) :
    (s.writeString (encodeDigits s.alphabet v)).str.read i = s.str.read i := by
  rw [read_writeString, dif_neg (by rw [length_encodeDigits hmin]; omega)]

end encoded

/-- With a committed codec CODEC_ENCODE writes the digits of OPA as characters (R164). -/
theorem exec_codecEncode_of_valid {s : State} (hv : s.codecValid = true) :
    exec .codecEncode s = .next ((s.writeString (encodeDigits s.alphabet s.opa)).complete false .ok) := by
  rw [exec_eq, commandEnd, codecEncodeCommand, if_pos hv, Instr.keyed]

/-! ### The obligation -/

/-- Settles O26: the digits are `valueDigits` of OPA; `read_encoded` and `read_beyond_encoded` are what STR holds. -/
theorem codecEncodeWritesPositionalDigits : Obligations.CodecEncodeWritesPositionalDigits := by
  intro s hwf hv
  obtain ⟨hmin, -, -⟩ := committed_of_codecWf hwf hv
  obtain ⟨hpos, hle⟩ := length_valueDigits hmin s.opa
  refine ⟨(s.writeString (encodeDigits s.alphabet s.opa)).complete false .ok,
    valueDigits s.codecLen.toNat s.opa.toNat, exec_codecEncode_of_valid hv, ?_, hpos, hle,
    fun _ => lt_of_mem_valueDigits hmin, positional_valueDigits _ _, fun hzero => ?_, fun hne => ?_,
    fun _ => read_encoded hmin s.opa, fun _ => read_beyond_encoded hmin s.opa⟩
  · rw [← length_encodeDigits hmin, complete_unkeyed_ok]
    rfl
  · simp [hzero, valueDigits]
  · exact head?_valueDigits_ne_zero _ (by simpa [← BitVec.toNat_inj] using hne)

end Sys2Proof.Machine
end

section
/-! SUPPORT and PROOFS. The value of a string, the errors of a decode, the wrapping accumulator, and the round trip of
the codec (42_codec.md R162, R165-R167). -/
namespace Sys2Proof.Machine

/-! ### Digits of characters -/

/-- A character outside the alphabet has no digit (R162). -/
theorem digitOf_eq_none_iff (alpha : List CharCode) (c : CharCode) : digitOf alpha c = none ↔ c ∉ alpha := by
  simp only [digitOf, List.findIdx?_eq_none_iff, beq_eq_false_iff_ne]
  exact ⟨fun h hc => h c hc rfl, fun h a ha hac => h (hac ▸ ha)⟩

/-- A digit is below the number of characters (R162). -/
theorem lt_of_digitOf_eq_some {alpha : List CharCode} {c : CharCode} {d : Nat} (h : digitOf alpha c = some d) :
    d < alpha.length := by
  obtain ⟨hd, -⟩ := List.findIdx?_eq_some_iff_getElem.mp h
  exact hd

/-- In an alphabet without repeats the digit of the character at index d is d (R162). -/
theorem digitOf_getElem {alpha : List CharCode} (hnodup : alpha.Nodup) {d : Nat} (hd : d < alpha.length) :
    digitOf alpha alpha[d] = some d := by
  rw [digitOf, List.findIdx?_eq_some_iff_getElem]
  refine ⟨hd, by simp, fun j hj => ?_⟩
  have hne : alpha[j] ≠ alpha[d] := fun h => hj.ne ((hnodup.getElem_inj_iff).mp h)
  simpa using hne

/-! ### The loop -/

/-- A string of the alphabet's characters: the loop takes up their digits (R165). -/
theorem decodeLoop_of_digits {alpha str : List CharCode} {ds : List Nat} (h : str.map (digitOf alpha) = ds.map some)
    (i e : Nat) : decodeLoop alpha i e str = .ok (ds.foldl (fun e d => e * alpha.length + d) e) := by
  induction str generalizing ds i e with
  | nil =>
    obtain rfl : ds = [] := by simpa using h.symm
    rfl
  | cons c rest ih =>
    obtain _ | ⟨d, ds⟩ := ds
    · simp at h
    · simp only [List.map_cons, List.cons.injEq] at h
      obtain ⟨hd, hrest⟩ := h
      rw [decodeLoop, hd, List.foldl_cons]
      exact ih hrest _ _

/-- The first character outside the alphabet is reported, whatever follows it (R165). -/
theorem decodeLoop_invalid {alpha xs : List CharCode} {c : CharCode} (hxs : ∀ x ∈ xs, x ∈ alpha) (hc : c ∉ alpha)
    (i e : Nat) (ys : List CharCode) :
    decodeLoop alpha i e (xs ++ c :: ys) = .error (.invalidChar (i + xs.length) c) := by
  induction xs generalizing i e with
  | nil =>
    rw [List.nil_append, decodeLoop, (digitOf_eq_none_iff _ _).mpr hc]
    rfl
  | cons x rest ih =>
    obtain ⟨hx, hrest⟩ := List.forall_mem_cons.mp hxs
    obtain ⟨d, hd⟩ := Option.ne_none_iff_exists'.mp (mt (digitOf_eq_none_iff alpha x).mp (not_not.mpr hx))
    rw [List.cons_append, decodeLoop, hd]
    exact (ih hrest _ _).trans (by rw [List.length_cons, Nat.add_right_comm, Nat.add_assoc])

/-! ### The string in STR -/

/-- The string in STR has the digits `ds` for the loop as well (R162). -/
theorem map_digitOf_string {s : State} (hnodup : s.alphabet.Nodup) {ds : List Nat} (h : stringDigits s ds) :
    s.string.map (digitOf s.alphabet) = ds.map some := by
  obtain ⟨hlen, hdigits⟩ := h
  apply List.ext_getElem
  · simp [State.string, hlen]
  · intro i _ hi
    rw [List.length_map] at hi
    obtain ⟨hlt, hread⟩ := hdigits i hi
    have hlt' : ds[i] < s.alphabet.length := by simpa using hlt
    rw [List.getElem_map, List.getElem_map, ← digitOf_getElem hnodup hlt']
    simp only [State.string, State.alphabet, Table.getElem_entries, hread]

/-- A character is in the committed alphabet when a digit below N stands for it (R160). -/
theorem mem_alphabet_iff (s : State) (c : CharCode) :
    c ∈ s.alphabet ↔ ∃ d : Nat, d < s.codecLen.toNat ∧ s.codecTab.read d = c := by
  simp [State.alphabet, Table.entries]

section committed
variable {s : State}

/-- The codec stage of a string of digits whose number is at most MAX_U64 (R165). -/
theorem decodeStage_of_value (hwf : s.codecWf = true) (hv : s.codecValid = true)
    (hlen : s.strLen.toNat ≤ Config.strMax) {ds : List Nat} (hds : stringDigits s ds)
    (hvalue : positional s.codecLen.toNat ds ≤ Config.maxU64) :
    s.decodeStage = .ok (BitVec.ofNat 64 (positional s.codecLen.toNat ds)) := by
  obtain ⟨-, -, hnodup⟩ := committed_of_codecWf hwf hv
  have hloop := decodeLoop_of_digits (map_digitOf_string hnodup hds) 0 0
  rw [length_alphabet] at hloop
  rw [State.decodeStage, if_pos hv, State.decodeValue, if_neg (Nat.not_lt.mpr hlen), decodeString, hloop]
  exact if_neg (Nat.not_lt.mpr hvalue)

/-- The codec stage of a string of digits whose number is above MAX_U64 (R165). -/
theorem decodeStage_of_overflow (hwf : s.codecWf = true) (hv : s.codecValid = true)
    (hlen : s.strLen.toNat ≤ Config.strMax) {ds : List Nat} (hds : stringDigits s ds)
    (hvalue : Config.maxU64 < positional s.codecLen.toNat ds) :
    s.decodeStage = .error (.overflow (positional s.codecLen.toNat ds)) := by
  obtain ⟨-, -, hnodup⟩ := committed_of_codecWf hwf hv
  have hloop := decodeLoop_of_digits (map_digitOf_string hnodup hds) 0 0
  rw [length_alphabet] at hloop
  rw [State.decodeStage, if_pos hv, State.decodeValue, if_neg (Nat.not_lt.mpr hlen), decodeString, hloop]
  exact if_pos hvalue

/-- The codec stage of a string too long (R165). -/
theorem decodeStage_of_long (hv : s.codecValid = true) (hlen : Config.strMax < s.strLen.toNat) :
    s.decodeStage = .error (.stringTooLong s.strLen) := by
  rw [State.decodeStage, if_pos hv, State.decodeValue, if_pos hlen]

/-- The codec stage of a string whose first character outside the alphabet is at index i (R165). -/
theorem decodeStage_of_invalid (hv : s.codecValid = true) (hlen : s.strLen.toNat ≤ Config.strMax) {i : Nat}
    (hi : i < s.strLen.toNat) (hbad : s.str.read i ∉ s.alphabet)
    (hbefore : ∀ k : Nat, k < i → s.str.read k ∈ s.alphabet) :
    s.decodeStage = .error (.invalidChar i (s.str.read i)) := by
  have hprefix : ∀ x ∈ s.str.entries i, x ∈ s.alphabet := by
    simpa [Table.entries] using hbefore
  rw [State.decodeStage, if_pos hv, State.decodeValue, if_neg (Nat.not_lt.mpr hlen), decodeString, State.string,
    Table.entries_eq_append _ hi, decodeLoop_invalid hprefix hbad, Table.length_entries, Nat.zero_add]

end committed

/-- The codec stage after a value's string has been written gives the value back (R167). -/
theorem decodeStage_writeString {s : State} (hwf : s.codecWf = true) (hv : s.codecValid = true) (v : Word) :
    (s.writeString (encodeDigits s.alphabet v)).decodeStage = .ok v := by
  obtain ⟨hmin, -, -⟩ := committed_of_codecWf hwf hv
  obtain ⟨-, hle⟩ := length_valueDigits hmin v
  have hlen : (s.writeString (encodeDigits s.alphabet v)).strLen.toNat
      = (valueDigits s.codecLen.toNat v.toNat).length := by
    rw [writeString_strLen, length_encodeDigits hmin, BitVec.toNat_ofNat]
    omega
  have hds : stringDigits (s.writeString (encodeDigits s.alphabet v)) (valueDigits s.codecLen.toNat v.toNat) :=
    ⟨hlen.symm, fun _ hi => ⟨lt_of_mem_valueDigits hmin (List.getElem_mem hi), read_encoded hmin v hi⟩⟩
  have hmax : v.toNat ≤ Config.maxU64 := Nat.le_pred_of_lt v.isLt
  have hvalue := positional_valueDigits s.codecLen.toNat v.toNat
  rw [decodeStage_of_value (s := s.writeString _) hwf hv (hlen.trans_le (hle.trans (by decide))) hds
    (hvalue.trans_le hmax), writeString_codecLen, hvalue, BitVec.ofNat_toNat, BitVec.setWidth_eq]

/-- CODEC_DECODE writes the value of the codec stage to RESULT (R166). -/
theorem exec_codecDecode_of_ok {s : State} {v : Word} (h : s.decodeStage = .ok v) :
    exec .codecDecode s = .next ({ s with result := v }.complete false .ok) := by
  rw [exec_eq, commandEnd, codecDecodeCommand, h, Instr.keyed]

/-- CODEC_DECODE only completes when the codec stage has an error (R166). -/
theorem exec_codecDecode_of_error {s : State} {e : Completion} (h : s.decodeStage = .error e) :
    exec .codecDecode s = .next (s.complete false e) := by
  rw [exec_eq, commandEnd, codecDecodeCommand, h, Instr.keyed]

/-! ### The wrapping accumulator -/

/-- What the hardware realisation holds where the exact value is `e` (R165). -/
def wrapped (e : Nat) : BitVec 128 × Bool := (BitVec.ofNat 128 e, decide (Config.maxU64 < e))

/-- One digit keeps that relation: a value that is flagged stays above MAX_U64, and one that is not is too small to
wrap (the two reasons of R165). -/
theorem accumulate128_wrapped {n d : Nat} (hn : 1 ≤ n) (hn' : n ≤ 512) (hd : d < n) (e : Nat) :
    accumulate128 n d (wrapped e) = wrapped (e * n + d) := by
  have hgrow : e ≤ e * n := Nat.le_mul_of_pos_right e hn
  simp only [accumulate128, wrapped, ← BitVec.ofNat_mul, ← BitVec.ofNat_add, Prod.mk.injEq, true_and]
  by_cases hflag : Config.maxU64 < e
  · have hstays : Config.maxU64 < e * n + d := by omega
    simp [hflag, hstays]
  · have hsmall : e * n ≤ Config.maxU64 * 512 := Nat.mul_le_mul (Nat.le_of_not_lt hflag) hn'
    simp only [Config.maxU64] at hflag hsmall ⊢
    have hexact : (e * n + d) % 2 ^ 128 = e * n + d := Nat.mod_eq_of_lt (by omega)
    rw [BitVec.toNat_ofNat, hexact]
    simp [hflag]

/-- The two loops keep that relation (R165). -/
theorem decodeLoop128_wrapped {alpha : List CharCode} (hn : 1 ≤ alpha.length) (hn' : alpha.length ≤ 512)
    (str : List CharCode) (i e : Nat) :
    decodeLoop128 alpha i (wrapped e) str = (decodeLoop alpha i e str).map wrapped := by
  induction str generalizing i e with
  | nil => rfl
  | cons c rest ih =>
    rw [decodeLoop128, decodeLoop]
    cases hd : digitOf alpha c with
    | none => rfl
    | some d =>
      simp only
      rw [accumulate128_wrapped hn hn' (lt_of_digitOf_eq_some hd), ih]

/-- What the hardware realisation answers, by the exact value (R165). -/
theorem decodeString128_eq {alpha : List CharCode} (hn : 1 ≤ alpha.length) (hn' : alpha.length ≤ 512)
    (str : List CharCode) :
    decodeString128 alpha str =
      match decodeLoop alpha 0 0 str with
      | .error c => .error c
      | .ok e => if Config.maxU64 < e then .error (.overflow (e % 2 ^ 128)) else .ok (BitVec.ofNat 64 e) := by
  rw [decodeString128, show ((0#128, false) : BitVec 128 × Bool) = wrapped 0 from rfl,
    decodeLoop128_wrapped hn hn']
  cases decodeLoop alpha 0 0 str with
  | error c => rfl
  | ok e =>
    by_cases hflag : Config.maxU64 < e
    · simp [Except.map, wrapped, hflag]
    · simp [Except.map, wrapped, hflag]

/-! ### The obligations -/

/-- Settles O28: `decodeStage_of_value` is the value that CODEC_DECODE writes. -/
theorem codecDecodeGivesStringValue : Obligations.CodecDecodeGivesStringValue := by
  intro s ds hwf hv hlen hds hvalue
  rw [exec_codecDecode_of_ok (decodeStage_of_value hwf hv hlen hds hvalue), complete_unkeyed_ok]

/-- Settles O29: one error of the codec stage per part, each with the codec's other checks passed. -/
theorem codecDecodeErrorsInOrder : Obligations.CodecDecodeErrorsInOrder := by
  intro s hwf hv
  refine ⟨fun hlong => ?_, fun i hlen hi hbad hbefore => ?_, fun ds hlen hds hvalue => ?_⟩
  · rw [exec_codecDecode_of_error (decodeStage_of_long hv hlong)]
    rfl
  · have hbad' : s.str.read i ∉ s.alphabet := fun hmem => by
      obtain ⟨d, hd, hread⟩ := (mem_alphabet_iff s _).mp hmem
      exact hbad d hd hread
    rw [exec_codecDecode_of_error
      (decodeStage_of_invalid hv hlen hi hbad' fun k hk => (mem_alphabet_iff s _).mpr (hbefore k hk))]
    rfl
  · rw [exec_codecDecode_of_error (decodeStage_of_overflow hwf hv hlen hds hvalue)]
    congr 1
    ext1 <;> simp [Completion.code, Completion.info0, Completion.info1, ← BitVec.toNat_inj]

/-- Settles O30: the accumulator holds the exact value mod 2^128 and its flag says whether that is above MAX_U64, so
an overflow reports the same two words. -/
theorem wrappingAccumulatorIsExact : Obligations.WrappingAccumulatorIsExact := by
  intro alpha str hn hn'
  rw [decodeString128_eq (by omega) hn', decodeString]
  cases decodeLoop alpha 0 0 str with
  | error c => exact ⟨rfl, rfl, rfl⟩
  | ok e =>
    by_cases hflag : Config.maxU64 < e
    · simp only [hflag, if_true]
      refine ⟨rfl, BitVec.eq_of_toNat_eq ?_, BitVec.eq_of_toNat_eq ?_⟩
      · simp only [Completion.info0, BitVec.toNat_ofNat]
        omega
      · simp only [Completion.info1, BitVec.toNat_ofNat]
        omega
    · simp [hflag]

/-- Settles O31: the string that CODEC_ENCODE writes is the value's, and `decodeStage_writeString` decodes it. -/
theorem codecEncodeThenDecodeGivesValue : Obligations.CodecEncodeThenDecodeGivesValue := by
  intro s hwf hv
  obtain ⟨hmin, -, -⟩ := committed_of_codecWf hwf hv
  obtain ⟨hpos, hle⟩ := length_valueDigits hmin s.opa
  refine ⟨_, _, exec_codecEncode_of_valid hv, exec_codecDecode_of_ok (decodeStage_writeString hwf hv s.opa), rfl, rfl,
    ?_, ?_⟩ <;>
  · rw [complete_strLen, writeString_strLen, length_encodeDigits hmin, BitVec.toNat_ofNat]
    omega

end Sys2Proof.Machine
end

section
/-! SUPPORT and PROOFS. The invariant, and what changes the committed codec and KEY (10_state.md R31, R37;
42_codec.md R160). -/
namespace Sys2Proof.Machine

/-! ### The invariant, part by part -/

theorem tablesWf_iff (s : State) :
    s.tablesWf = true ↔
      s.alphaStage.wf Config.alphaMax = true ∧ s.codecTab.wf Config.alphaMax = true
      ∧ s.str.wf Config.strMax = true := by
  simp [State.tablesWf, and_assoc]

theorem inv_iff (s : State) :
    s.inv = true ↔
      s.codecWf = true ∧ s.errCode ∈ errorCodes ∧ s.traceClass ≠ 3#2 ∧ s.tablesWf = true := by
  simp [State.inv, and_assoc]

/-- Every completion records one of the codes of R221. -/
theorem Completion.code_mem_errorCodes (c : Completion) : c.code ∈ errorCodes := by
  cases c <;> simp [Completion.code, errorCodes]

/-- No class has the code 3 (R111). -/
theorem SizeClass.code_ne_three (c : SizeClass) : c.code ≠ 3#2 := by
  cases c <;> decide

/-! ### The Complete step keeps the invariant -/

/-- A value's string fits into STR (R163, R164). -/
theorem wf_str_writeString {s : State} (hwf : s.codecWf = true) (hv : s.codecValid = true)
    (hstr : s.str.wf Config.strMax = true) (v : Word) :
    (s.writeString (encodeDigits s.alphabet v)).str.wf Config.strMax = true := by
  obtain ⟨hmin, -, -⟩ := committed_of_codecWf hwf hv
  obtain ⟨-, hle⟩ := length_valueDigits hmin v
  refine Table.wf_writeFrom hstr 0 _ ?_
  rw [length_encodeDigits hmin, Nat.zero_add]
  exact hle.trans (by decide)

/-- A commit of 2 to ALPHA_MAX distinct characters makes a well-formed codec (R161). -/
theorem codecWf_commitCodec {s : State} (hmin : 2 ≤ s.alphaStageLen.toNat)
    (hmax : s.alphaStageLen.toNat ≤ Config.alphaMax) (hdistinct : firstRepeat [] 0 s.candidate = none) :
    s.commitCodec.codecWf = true := by
  rw [codecWf_iff, commitCodec_alphabet hmax]
  exact ⟨.inr ⟨hmin, hmax⟩, (decide_eq_true hmin).symm, ((firstRepeat_eq_none_iff _ _ _).mp hdistinct).1⟩

/-- Writing outputs keeps the invariant, whatever the code. -/
theorem inv_outputsOnly {s t : State} (hinv : s.inv = true) (h : s.outputsOnly t) : t.inv = true := by
  obtain ⟨hwf, hcode, hclass, htables⟩ := (inv_iff s).mp hinv
  obtain ⟨hstage, htab, hstr⟩ := (tablesWf_iff s).mp htables
  obtain ⟨_, _, str, traceClass, _, _, _, _, hstr', hclass', rfl⟩ := h
  have hclass'' : traceClass ≠ 3#2 := by
    obtain rfl | ⟨c, rfl⟩ := hclass'
    · exact hclass
    · exact c.code_ne_three
  have hstr'' : str.wf Config.strMax = true := by
    obtain rfl | ⟨hv, v, rfl⟩ := hstr'
    · exact hstr
    · exact wf_str_writeString hwf hv hstr v
  exact (inv_iff _).mpr ⟨hwf, hcode, hclass'', (tablesWf_iff _).mpr ⟨hstage, htab, hstr''⟩⟩

/-- A commit keeps the invariant. -/
theorem inv_commitCodec {s : State} (hinv : s.inv = true) (hmin : 2 ≤ s.alphaStageLen.toNat)
    (hmax : s.alphaStageLen.toNat ≤ Config.alphaMax) (hdistinct : firstRepeat [] 0 s.candidate = none) :
    s.commitCodec.inv = true := by
  obtain ⟨-, hcode, hclass, htables⟩ := (inv_iff s).mp hinv
  obtain ⟨hstage, -, hstr⟩ := (tablesWf_iff s).mp htables
  exact (inv_iff _).mpr ⟨codecWf_commitCodec hmin hmax hdistinct, hcode, hclass,
    (tablesWf_iff _).mpr ⟨hstage, Table.wf_tabulate _ _ _ _ (by simp), hstr⟩⟩

/-- Every command's pseudocode keeps the invariant. -/
theorem inv_commandEnd {s : State} (hinv : s.inv = true) (i : Instr) : (commandEnd i s).1.inv = true := by
  obtain ⟨-, hmin, hmax, hdistinct, h⟩ | ⟨-, hout⟩ | ⟨-, htrace⟩ := commandEnd_cases i s
  · rw [h]
    exact inv_commitCodec hinv hmin hmax hdistinct
  · exact inv_outputsOnly hinv hout
  · exact inv_outputsOnly hinv htrace.outputsOnly

/-- The completion keeps the invariant: it writes one of the codes of R221 and no table. -/
theorem inv_complete {s : State} (hinv : s.inv = true) (keyed : Bool) (c : Completion) :
    (s.complete keyed c).inv = true := by
  obtain ⟨hwf, -, hclass, htables⟩ := (inv_iff s).mp hinv
  exact (inv_iff _).mpr ⟨hwf, c.code_mem_errorCodes, hclass, htables⟩

/-- The Complete step keeps the invariant. -/
theorem inv_completeStep {s t : State} (hinv : s.inv = true) (h : completeStep s = .next t) : t.inv = true := by
  obtain rfl | ⟨i, -, rfl⟩ := completeStep_eq_complete h
  · exact inv_complete hinv _ _
  · exact inv_complete (inv_commandEnd hinv i) _ _

/-! ### The other agents keep the invariant -/

/-- The map has a table entry at an offset only when its index is below the table's size (R65). -/
theorem regAt_index_lt {off : Offset} {i : Nat} :
    (regAt off = .alphaStage i → i < Config.alphaMax) ∧ (regAt off = .str i → i < Config.strMax) := by
  have ho := regAt_offset off
  refine ⟨fun h => ?_, fun h => ?_⟩ <;>
  · rw [h] at ho
    by_contra hi
    simp [Reg.offset, hi] at ho

/-- A HostWrite keeps the invariant. -/
theorem inv_hostWrite {s : State} (hinv : s.inv = true) (off : Offset) (v : Word) :
    (s.hostWrite off v).inv = true := by
  obtain ⟨-, h⟩ | ⟨-, -, h⟩ | ⟨-, -, h⟩ := hostWrite_cases s off v <;> rw [h]
  · exact hinv
  · exact hinv
  · obtain ⟨hwf, hcode, hclass, htables⟩ := (inv_iff s).mp hinv
    obtain ⟨hstage, htab, hstr⟩ := (tablesWf_iff s).mp htables
    cases hr : regAt off with
    | alphaStage i =>
      have hstage' := Table.wf_write hstage (regAt_index_lt.1 hr) (v.setWidth 32)
      exact (inv_iff _).mpr ⟨hwf, hcode, hclass, (tablesWf_iff _).mpr ⟨hstage', htab, hstr⟩⟩
    | str i =>
      have hstr' := Table.wf_write hstr (regAt_index_lt.2 hr) (v.setWidth 32)
      exact (inv_iff _).mpr ⟨hwf, hcode, hclass, (tablesWf_iff _).mpr ⟨hstage, htab, hstr'⟩⟩
    | _ => exact hinv

/-- A turn of the Host keeps the invariant, which says nothing of the Host. -/
theorem inv_hostTurn {s t : State} (hinv : s.inv = true) (h : hostTurn s = .next t) : t.inv = true := by
  obtain ⟨off, width, e, -, rfl⟩ | ⟨-, hs, rfl⟩ := hostTurn_write_or_frame h
  · exact inv_hostWrite hinv off _
  · exact hinv

/-- The Reset event establishes the invariant: no codec, and tabulated tables (R260). -/
theorem inv_resetEvent (s : State) : s.resetEvent.inv = true := by
  have hwf : s.resetEvent.codecWf = true := (codecWf_iff _).mpr ⟨.inl rfl, rfl, List.nodup_nil⟩
  have htables : s.resetEvent.tablesWf = true := (tablesWf_iff _).mpr
    ⟨Table.wf_tabulate _ _ _ _ (by simp), Table.wf_tabulate _ _ _ _ (by simp), Table.wf_tabulate _ _ _ _ (by simp)⟩
  exact (inv_iff _).mpr ⟨hwf, by simp [errorCodes], by simp, htables⟩

/-! ### The committed codec -/

/-- The committed codec is the same in two states. -/
def State.sameCodec (s t : State) : Prop :=
  t.codecValid = s.codecValid ∧ t.codecLen = s.codecLen ∧ t.codecTab = s.codecTab

/-- No register of the codec is written by the Host (R67). -/
theorem writeReg_sameCodec (s : State) (r : Reg) (v : Word) : s.sameCodec (s.writeReg r v) := by
  cases r <;> exact ⟨rfl, rfl, rfl⟩

theorem hostWrite_sameCodec (s : State) (off : Offset) (v : Word) : s.sameCodec (s.hostWrite off v) := by
  obtain ⟨-, h⟩ | ⟨-, -, h⟩ | ⟨-, -, h⟩ := hostWrite_cases s off v <;> rw [h]
  · exact ⟨rfl, rfl, rfl⟩
  · exact ⟨rfl, rfl, rfl⟩
  · exact writeReg_sameCodec s _ v

/-- The Complete step keeps the codec, or it is that of CODEC_NEW and succeeds (R161). -/
theorem completeStep_sameCodec_or_commit {s t : State} (h : completeStep s = .next t) :
    s.sameCodec t ∨ (s.cmd = Sys2Proof.encode .codecNew ∧ t.errCode = 0x00#8) := by
  obtain rfl | ⟨i, hi, rfl⟩ := completeStep_eq_complete h
  · exact .inl ⟨rfl, rfl, rfl⟩
  · obtain ⟨rfl, hc⟩ | ⟨_, _, _, _, _, _, _, _, -, -, hc⟩ := commandEnd_commits_or_outputsOnly i s
    · exact .inr ⟨eq_encode_of_decode hi, by rw [hc]; rfl⟩
    · exact .inl (by rw [hc]; exact ⟨rfl, rfl, rfl⟩)

/-! ### KEY -/

/-- KEY is at offset 0x0020 and nowhere else (R64). -/
theorem regAt_eq_key_iff (off : Offset) : regAt off = .key ↔ off = 0x0020#16 :=
  ⟨fun h => BitVec.eq_of_toNat_eq (toNat_eq_of_regAt_eq h rfl), by rintro rfl; rfl⟩

/-- Of the registers, only a write to KEY changes it (R67). -/
theorem writeReg_key (s : State) (r : Reg) (v : Word) :
    (s.writeReg r v).key = if r = .key then v else s.key := by
  cases r <;> rfl

/-- A HostWrite changes KEY only at its offset and while BUSY = 0 (R67, R68). -/
theorem hostWrite_key (s : State) (off : Offset) (v : Word) :
    (s.hostWrite off v).key = if off = 0x0020#16 ∧ s.busy = false then v else s.key := by
  simp only [← regAt_eq_key_iff]
  obtain ⟨hr, h⟩ | ⟨-, hb, h⟩ | ⟨-, hb, h⟩ := hostWrite_cases s off v
  · simp [h, hr]
  · simp [h, hb]
  · simp [h, hb, writeReg_key]

/-- No command's pseudocode writes KEY (R98). -/
theorem commandEnd_key (i : Instr) (s : State) : (commandEnd i s).1.key = s.key := by
  obtain ⟨-, h⟩ | ⟨_, _, _, _, _, _, _, _, -, -, h⟩ := commandEnd_commits_or_outputsOnly i s
  · rw [h, commitCodec_key]
  · rw [h]

/-- The word of a keyed command is one of four (R92, R98). -/
theorem encode_mem_of_keyed {i : Instr} (h : i.keyed = true) :
    Sys2Proof.encode i ∈ [0x01#64, 0x02#64, 0x20#64, 0x21#64] := by
  have hi := (keyed_iff i).mp h
  fin_cases hi <;> decide

/-- The Complete step keeps KEY, or it is that of a keyed command and zeroes it (R93, R98). -/
theorem completeStep_key {s t : State} (h : completeStep s = .next t) :
    t.key = s.key ∨ (t.key = 0#64 ∧ s.cmd ∈ [0x01#64, 0x02#64, 0x20#64, 0x21#64]) := by
  obtain rfl | ⟨i, hi, rfl⟩ := completeStep_eq_complete h
  · exact .inl rfl
  · rw [complete_key, commandEnd_key, eq_encode_of_decode hi]
    cases hk : i.keyed
    · exact .inl rfl
    · exact .inr ⟨rfl, encode_mem_of_keyed hk⟩

/-- No read depends on KEY (R31). -/
theorem readReg_setKey (s : State) (k : Word) (r : Reg) : State.readReg { s with key := k } r = s.readReg r := by
  cases r <;> rfl

/-! ### The obligations -/

/-- Settles O45: one lemma per agent; a turn taken changes nothing that the invariant speaks of. -/
theorem stepKeepsInvariant : Obligations.StepKeepsInvariant := by
  intro s t hinv h
  have hpop : s.popTurn.inv = true := hinv
  obtain ⟨-, hturn⟩ | ⟨-, -, rfl⟩ | ⟨-, -, hc⟩ | ⟨-, rfl⟩ := step_cases h
  · exact inv_hostTurn hpop hturn
  · exact hpop
  · exact inv_completeStep hpop hc
  · exact inv_resetEvent _

/-- Settles O46: the reset state's tables are empty and its registers are 0. -/
theorem invariantHoldsAtReset : Obligations.InvariantHoldsAtReset := by
  unfold Obligations.InvariantHoldsAtReset
  decide

/-- Settles O47: the Host keeps the codec, and the Engine does but for a successful CODEC_NEW. -/
theorem onlyCodecNewOrResetChangesCodec : Obligations.OnlyCodecNewOrResetChangesCodec := by
  intro s t h hchange
  have hnot : ¬ s.sameCodec t := fun ⟨hvalid, hlen, htab⟩ => by simp [hvalid, hlen, htab] at hchange
  obtain ⟨-, hturn⟩ | ⟨-, -, rfl⟩ | ⟨ha, hb, hc⟩ | ⟨ha, rfl⟩ := step_cases h
  · obtain ⟨off, width, e, -, rfl⟩ | ⟨-, hs, rfl⟩ := hostTurn_write_or_frame hturn
    · exact absurd (hostWrite_sameCodec s.popTurn off _) hnot
    · exact absurd ⟨rfl, rfl, rfl⟩ hnot
  · exact absurd ⟨rfl, rfl, rfl⟩ hnot
  · obtain hsame | ⟨hcmd, herr⟩ := completeStep_sameCodec_or_commit hc
    · exact absurd hsame hnot
    · exact .inr ⟨ha, hb, hcmd, herr⟩
  · exact .inl ha

/-- Settles O50: no register reads KEY; of the agents the Host writes it at its own offset, the Engine and Reset only
zero it. -/
theorem keyIsWriteOnlyAndZeroed : Obligations.KeyIsWriteOnlyAndZeroed := by
  refine ⟨fun s k off => ⟨readReg_setKey s k _, rfl⟩, fun s t h hchange => ?_⟩
  obtain ⟨ha, hturn⟩ | ⟨-, -, rfl⟩ | ⟨ha, hb, hc⟩ | ⟨ha, rfl⟩ := step_cases h
  · obtain ⟨off, width, e, hl, rfl⟩ | ⟨-, hs, rfl⟩ := hostTurn_write_or_frame hturn
    · simp only [hostWrite_key, popTurn_host, popTurn_busy, popTurn_key] at hl hchange ⊢
      by_cases hkey : off = 0x0020#16 ∧ s.busy = false
      · obtain ⟨rfl, hb⟩ := hkey
        exact .inl ⟨ha, hb, width, e, hl, if_pos ⟨rfl, hb⟩⟩
      · exact absurd (if_neg hkey) hchange
    · exact absurd rfl hchange
  · exact absurd rfl hchange
  · obtain hsame | ⟨hzero, hcmd⟩ := completeStep_key hc
    · exact absurd hsame hchange
    · exact .inr (.inl ⟨ha, hb, hzero, hcmd⟩)
  · exact .inr (.inr ⟨ha, rfl⟩)

end Sys2Proof.Machine
end

section
/-! SUPPORT and PROOFS. Masks, parity, the fields of a MixedValue, and the completion of MIX (40_sizeclass.md R114;
41_mixer.md R120-R125). -/
namespace Sys2Proof.Machine

/-! ### Parity -/

/-- Counting odd is folding XOR, from any start. -/
theorem foldl_xor_eq_countP (p : Nat → Bool) (l : List Nat) (b : Bool) :
    l.foldl (fun b i => b ^^ p i) b = (b ^^ (l.countP p % 2 == 1)) := by
  induction l generalizing b with
  | nil => simp
  | cons i rest ih =>
    rw [List.foldl_cons, ih, List.countP_cons]
    obtain h | h := Nat.mod_two_eq_zero_or_one (rest.countP p) <;> cases p i <;> cases b <;> simp [Nat.add_mod, h]

/-- Parity is the XOR of all bits (R120). -/
theorem parity_eq_foldl (x : Word) : parity x = (List.range 64).foldl (fun b i => b ^^ x.getLsbD i) false := by
  rw [foldl_xor_eq_countP, Bool.false_xor, parity, popcount]

/-- The fold of XOR splits over XOR. -/
theorem foldl_xor_xor (p q : Nat → Bool) (l : List Nat) (a b : Bool) :
    l.foldl (fun b i => b ^^ (p i ^^ q i)) (a ^^ b)
      = (l.foldl (fun b i => b ^^ p i) a ^^ l.foldl (fun b i => b ^^ q i) b) := by
  induction l generalizing a b with
  | nil => rfl
  | cons i rest ih =>
    simp only [List.foldl_cons]
    rw [← ih, Bool.xor_assoc, Bool.xor_assoc, Bool.xor_left_comm b]

/-- Parity splits over XOR (R120). -/
@[simp] theorem parity_xor (a b : Word) : parity (a ^^^ b) = (parity a ^^ parity b) := by
  simp only [parity_eq_foldl, BitVec.getLsbD_xor]
  exact foldl_xor_xor _ _ _ false false

/-! ### Masks -/

/-- A class's mask has exactly its maskWidth low bits set (R114). -/
theorem SizeClass.getLsbD_mask (c : SizeClass) (i : Nat) : c.mask.getLsbD i = decide (i < c.maskWidth) := by
  have hwidth : c.maskWidth ≤ 64 := by cases c <;> decide
  rw [SizeClass.mask, BitVec.getLsbD_ofNat, Nat.testBit_two_pow_sub_one]
  by_cases hi : i < c.maskWidth
  · simp [hi, hi.trans_le hwidth]
  · simp [hi]

/-! ### The fields of a MixedValue -/

/-- Bit i of a MixedValue: the control byte's below 8, scrambled2's from 8 on (R121). -/
theorem getLsbD_mixedValue (s2 : Word) (cb : BitVec 8) {i : Nat} (hi : i < 8) :
    (mixedValue s2 cb).getLsbD i = cb.getLsbD i := by
  have hi' : i < 64 := by omega
  simp [mixedValue, hi, hi']

section fields
variable (s2 : Word) (rand : BitVec 5) (pad keyParity saltParity : Bool)

/-- The bits of a control byte, from bit 0 up (R121). -/
theorem getLsbD_controlByte (i : Nat) :
    (controlByte rand pad keyParity saltParity).getLsbD i =
      if i = 0 then saltParity else if i = 1 then keyParity else if i = 2 then pad else rand.getLsbD (i - 3) := by
  refine (BitVec.getLsbD_append (x := rand ++ BitVec.ofBool pad ++ BitVec.ofBool keyParity)).trans ?_
  rw [BitVec.getLsbD_append, BitVec.getLsbD_append]
  obtain _ | _ | _ | i := i <;> simp

@[simp] theorem mixedSaltParity_mixedValue :
    mixedSaltParity (mixedValue s2 (controlByte rand pad keyParity saltParity)) = saltParity := by
  rw [mixedSaltParity, getLsbD_mixedValue _ _ (by decide), getLsbD_controlByte]
  rfl

@[simp] theorem mixedKeyParity_mixedValue :
    mixedKeyParity (mixedValue s2 (controlByte rand pad keyParity saltParity)) = keyParity := by
  rw [mixedKeyParity, getLsbD_mixedValue _ _ (by decide), getLsbD_controlByte]
  rfl

@[simp] theorem mixedPad_mixedValue :
    mixedPad (mixedValue s2 (controlByte rand pad keyParity saltParity)) = pad := by
  rw [mixedPad, getLsbD_mixedValue _ _ (by decide), getLsbD_controlByte]
  rfl

@[simp] theorem mixedRand_mixedValue :
    mixedRand (mixedValue s2 (controlByte rand pad keyParity saltParity)) = rand := by
  apply BitVec.eq_of_getLsbD_eq
  intro i hi
  rw [mixedRand, BitVec.getLsbD_extractLsb', getLsbD_mixedValue _ _ (by omega), getLsbD_controlByte]
  have h1 : 3 + i ≠ 1 := by omega
  have h2 : 3 + i ≠ 2 := by omega
  simp [hi, h1, h2]

end fields

/-- A MixedValue as a number, when the shift by 8 truncates nothing (R121). -/
theorem toNat_mixedValue {s2 : Word} (h : s2.toNat < 2 ^ 56) (cb : BitVec 8) :
    (mixedValue s2 cb).toNat = s2.toNat * 256 + cb.toNat := by
  have hcb := cb.isLt
  have hshift : (s2 <<< 8).toNat = s2.toNat <<< 8 := by
    rw [BitVec.toNat_shiftLeft, Nat.mod_eq_of_lt]
    rw [Nat.shiftLeft_eq]
    omega
  rw [mixedValue, BitVec.toNat_or, hshift, BitVec.toNat_setWidth, Nat.mod_eq_of_lt (by omega),
    ← Nat.shiftLeft_add_eq_or_of_lt hcb, Nat.shiftLeft_eq]

/-! ### The stages of mix, without the key -/

/-- scrambled2 before its boundary bit: the id over the shifted rand. The key does not occur in it (R131). -/
def unpadded (id : Word) (rand : BitVec 5) : Word := id ^^^ (rand.setWidth 64 <<< (classify id).saltShift)

/-- scrambled2, with the boundary bit where it pads (R123, R124). -/
def padded (id : Word) (rand : BitVec 5) : Word :=
  if needsPad (classify id) (unpadded id rand) then unpadded id rand ||| boundaryBit (classify id)
  else unpadded id rand

/-- A Small id never pads; the boundary bits of the two other classes written out (R124). -/
theorem padded_eq (id : Word) (rand : BitVec 5) :
    padded id rand =
      if needsPad (classify id) (unpadded id rand) then
        if classify id = .medium then unpadded id rand ||| 0x10000#64 else unpadded id rand ||| 0x100000000#64
      else unpadded id rand := by
  unfold padded
  cases classify id <;> rfl

/-- A key masked twice into a value leaves it (R123). -/
theorem xor_xor_cancel (a b k : Word) : (k ^^^ a) ^^^ (b ^^^ k) = a ^^^ b := by
  rw [BitVec.xor_comm b k, BitVec.xor_assoc, ← BitVec.xor_assoc a k b, BitVec.xor_comm a k, BitVec.xor_assoc k a b,
    ← BitVec.xor_assoc k k, BitVec.xor_self, BitVec.zero_xor]

/-- In scrambled1 XOR salt the masked key cancels (R131). -/
theorem xor_salt (key id : Word) (rand : BitVec 5) :
    (maskedKey key (classify id) ^^^ id) ^^^ salt key (classify id) rand = unpadded id rand :=
  xor_xor_cancel _ _ _

section mixCore
variable (key id : Word) (rand : BitVec 5)

theorem mixCore_s2 : (mixCore key id rand).s2 = padded id rand := by
  simp only [mixCore, xor_salt, padded]

/-- Of the MixedValue only keyParity depends on the key (R131). -/
theorem mixCore_mixed :
    (mixCore key id rand).mixed = mixedValue (padded id rand)
      (controlByte rand (needsPad (classify id) (unpadded id rand)) (parity (mixCore key id rand).s1)
        (parity (unpadded id rand))) := by
  simp only [mixCore, xor_salt, padded]

end mixCore

/-- needsPad with its thresholds written out (R124). -/
theorem needsPad_eq (c : SizeClass) (s2 : Word) :
    needsPad c s2 =
      ((c == .medium && decide (s2.toNat ≤ 0xFFFF)) || (c == .large && decide (s2.toNat ≤ 0xFFFFFFFF))) := by
  cases c with
  | small => rfl
  | medium => simp [needsPad, BitVec.le_def, Config.maxU16]
  | large => simp [needsPad, BitVec.le_def, Config.maxU32]

/-! ### The obligations -/

/-- Settles O10: `SizeClass.getLsbD_mask`. -/
theorem maskKeepsLowBits : Obligations.MaskKeepsLowBits := SizeClass.getLsbD_mask

/-- Settles O12: parity folds the bits, hence splits over XOR; values whose XOR has even parity have equal parities. -/
theorem parityFoldsBits : Obligations.ParityFoldsBits := by
  refine ⟨parity_eq_foldl, parity_xor, fun a b heven => ?_, rfl⟩
  have hxor : parity (a ^^^ b) = false := by rw [parity, heven]; rfl
  rw [parity_xor] at hxor
  simpa using hxor

/-- Settles O13: `exec_mix_of_lt`, the completion written out. -/
theorem mixRejectsIdAboveDomain : Obligations.MixRejectsIdAboveDomain := fun _ h => exec_mix_of_lt h

/-- Settles O14: the MixedValue of `mixCore_mixed`, field by field; scrambled2 is where `mixedScrambled_mixCore` finds
it. -/
theorem mixCompletesWithMixedValue : Obligations.MixCompletesWithMixedValue := by
  intro s h
  refine ⟨_, exec_mix_of_le h, by rw [traceMix_eq]; rfl, ?_⟩
  intro rand c s1 s2 pad
  have hs2 : s2 = unpadded s.opa rand := xor_salt s.key s.opa s.randDraw
  have hpad : pad = needsPad c (unpadded s.opa rand) := hs2 ▸ (needsPad_eq c s2).symm
  have hscrambled : mixedScrambled (mixCore s.key s.opa rand).mixed = padded s.opa rand :=
    (mixedScrambled_mixCore h s.key rand).trans (mixCore_s2 _ _ _)
  rw [padded_eq, ← hpad, ← hs2] at hscrambled
  have hmixed := mixCore_mixed s.key s.opa rand
  rw [← hpad, ← hs2] at hmixed
  refine ⟨?_, ?_, ?_, ?_, hscrambled⟩
  · exact (congrArg mixedRand hmixed).trans (mixedRand_mixedValue _ _ _ _ _)
  · exact (congrArg mixedPad hmixed).trans (mixedPad_mixedValue _ _ _ _ _)
  · exact (congrArg mixedKeyParity hmixed).trans (mixedKeyParity_mixedValue _ _ _ _ _)
  · exact (congrArg mixedSaltParity hmixed).trans (mixedSaltParity_mixedValue _ _ _ _ _)

/-- Settles O16: the bounds on scrambled1 and scrambled2, and the MixedValue as a number. -/
theorem mixNeverTruncates : Obligations.MixNeverTruncates := by
  intro key id rand hid
  exact ⟨toNat_mixCore_s1_lt hid key rand, toNat_mixCore_s2_lt hid key rand, _,
    toNat_mixedValue (toNat_mixCore_s2_lt hid key rand) _⟩

end Sys2Proof.Machine
end

section
/-! SUPPORT and PROOFS. What UNMIX recovers, its two checks, and its completions (41_mixer.md R127-R131). -/
namespace Sys2Proof.Machine

/-! ### The recovered values -/

/-- The masks of the next smaller class, written out (R128). -/
theorem unpad_eq (c : SizeClass) (pad : Bool) (r2 : Word) :
    unpad c pad r2 =
      if pad && c == .medium then r2 &&& 0xFFFF#64 else if pad && c == .large then r2 &&& 0xFFFFFFFF#64 else r2 := by
  cases pad <;> cases c <;> rfl

/-- What unmix recovers from bits 63:8, its thresholds written out (R128). -/
theorem unmixS2_eq (m : Word) : unmixS2 m = recovered (unmixClass m) m :=
  unpad_eq (unmixClass m) (mixedPad m) (mixedScrambled m)

/-- The id that unmix computes is the recovered value over the shifted rand, whatever the key (R131). -/
theorem unmixId_eq (key m : Word) :
    unmixId key m = unmixS2 m ^^^ ((mixedRand m).setWidth 64 <<< (unmixClass m).saltShift) := by
  rw [unmixId, unmixUnsalted, salt, ← BitVec.xor_assoc (unmixS2 m), BitVec.xor_comm _ (maskedKey _ _),
    ← BitVec.xor_assoc, BitVec.xor_self, BitVec.zero_xor]

/-- A masked value is no larger than the value (R128). -/
theorem toNat_unpad_le (c : SizeClass) (pad : Bool) (r2 : Word) : (unpad c pad r2).toNat ≤ r2.toNat := by
  unfold unpad
  split
  · cases c
    · exact le_rfl
    · exact Nat.and_le_left
    · exact Nat.and_le_left
  · exact le_rfl

/-- The recovered value is below 2^56, as bits 63:8 are (R127). -/
theorem toNat_unmixS2_lt (m : Word) : (unmixS2 m).toNat < 2 ^ 56 := by
  refine lt_of_le_of_lt (toNat_unpad_le _ _ _) ?_
  have hm := m.isLt
  rw [mixedScrambled, BitVec.toNat_ushiftRight, Nat.shiftRight_eq_div_pow]
  omega

/-- The id that unmix computes is in the domain (R127). -/
theorem toNat_unmixId_lt (key m : Word) : (unmixId key m).toNat < 2 ^ 56 := by
  rw [unmixId_eq, BitVec.toNat_xor]
  exact Nat.xor_lt_two_pow (toNat_unmixS2_lt m) (toNat_shifted_rand_lt _ _)

/-! ### The checks and the stage -/

/-- The salt check, written out (R127). -/
theorem saltCheck_iff (m : Word) : saltCheck m = true ↔ parity (recovered (unmixClass m) m) = m.getLsbD 0 := by
  rw [saltCheck, unmixS2_eq, beq_iff_eq]
  rfl

/-- The key check, written out (R127). -/
theorem keyCheck_iff (key m : Word) :
    keyCheck key m = true ↔
      parity (recovered (unmixClass m) m ^^^ salt key (unmixClass m) (mixedRand m)) = m.getLsbD 1 := by
  rw [keyCheck, unmixUnsalted, unmixS2_eq, beq_iff_eq]
  rfl

section stage
variable (s : State) {m : Word}

/-- The stage when both checks pass, the trace points written out (R127, R130). -/
theorem unmixStage_of_checks (hsalt : saltCheck m = true) (hkey : keyCheck s.key m = true) :
    unmixStage s m = ({ s with
      traceClass := if s.traceEn then (unmixClass m).code else s.traceClass
      traceS1 := if s.traceEn then unmixS2 m else s.traceS1
      traceS2 := if s.traceEn then unmixUnsalted s.key m else s.traceS2
      traceFinal := if s.traceEn then unmixId s.key m else s.traceFinal }, .ok (unmixId s.key m)) := by
  simp only [unmixStage, if_pos hsalt, if_pos hkey, traceUnmixEntry_eq, traceUnmixUnsalted_eq, traceUnmixFinal_eq]

/-- The stage when the salt check fails (R127, R130). -/
theorem unmixStage_of_salt_error (hsalt : saltCheck m = false) :
    unmixStage s m = ({ s with
      traceClass := if s.traceEn then (unmixClass m).code else s.traceClass
      traceS1 := if s.traceEn then unmixS2 m else s.traceS1 }, .error (.checksumRandsalt m)) := by
  simp only [unmixStage, hsalt, Bool.false_eq_true, if_false, traceUnmixEntry_eq]

/-- The stage when the salt check passes and the key check fails (R127, R130). -/
theorem unmixStage_of_key_error (hsalt : saltCheck m = true) (hkey : keyCheck s.key m = false) :
    unmixStage s m = ({ s with
      traceClass := if s.traceEn then (unmixClass m).code else s.traceClass
      traceS1 := if s.traceEn then unmixS2 m else s.traceS1
      traceS2 := if s.traceEn then unmixUnsalted s.key m else s.traceS2 }, .error (.checksumKey m)) := by
  simp only [unmixStage, if_pos hsalt, hkey, Bool.false_eq_true, if_false, traceUnmixEntry_eq, traceUnmixUnsalted_eq]

end stage

/-- How UNMIX and DECODE end on the value `m`: with the id of the unmix stage in RESULT, or with its error (R129,
R201). -/
def unmixEnd (s : State) (m : Word) : CommandEnd :=
  match unmixStage s m with
  | (t, .ok id) => ({ t with result := id }, .ok)
  | (t, .error e) => (t, e)

theorem unmixCommand_eq (s : State) : unmixCommand s = unmixEnd s s.opa := rfl

theorem decodeCommand_of_value {s : State} {v : Word} (h : s.decodeStage = .ok v) :
    decodeCommand s = unmixEnd s v := by
  simp only [decodeCommand, h]
  rfl

theorem decodeCommand_of_error {s : State} {e : Completion} (h : s.decodeStage = .error e) :
    decodeCommand s = (s, e) := by
  simp only [decodeCommand, h]

/-- How the unmix stage ends, field by field (R127, R130). -/
theorem unmixEnd_eq (s : State) (m : Word) :
    unmixEnd s m = ({ s with
      result := if saltCheck m && keyCheck s.key m then unmixId s.key m else s.result
      traceClass := if s.traceEn then (unmixClass m).code else s.traceClass
      traceS1 := if s.traceEn then unmixS2 m else s.traceS1
      traceS2 := if s.traceEn && saltCheck m then unmixUnsalted s.key m else s.traceS2
      traceFinal := if s.traceEn && (saltCheck m && keyCheck s.key m) then unmixId s.key m else s.traceFinal },
      if saltCheck m then if keyCheck s.key m then .ok else .checksumKey m else .checksumRandsalt m) := by
  cases hsalt : saltCheck m
  · simp [unmixEnd, unmixStage_of_salt_error, hsalt]
  · cases hkey : keyCheck s.key m
    · simp [unmixEnd, unmixStage_of_key_error, hsalt, hkey]
    · simp [unmixEnd, unmixStage_of_checks, hsalt, hkey]

/-- The code and RESULT of the unmix stage, by its two checks in their order (R127). -/
theorem unmixEnd_outcome (s : State) (m : Word) :
    (unmixEnd s m).2.code = (if saltCheck m then if keyCheck s.key m then 0x00#8 else 0x07#8 else 0x06#8)
      ∧ (unmixEnd s m).1.result = if saltCheck m && keyCheck s.key m then unmixId s.key m else s.result := by
  rw [unmixEnd_eq]
  cases saltCheck m <;> cases keyCheck s.key m <;> exact ⟨rfl, rfl⟩

/-- The code and RESULT of an UNMIX, by its two checks in their order (R127, R129). -/
theorem exec_unmix_outcome (s : State) :
    ∃ u : State, exec .unmix s = .next u
      ∧ u.errCode = (if saltCheck s.opa then if keyCheck s.key s.opa then 0x00#8 else 0x07#8 else 0x06#8)
      ∧ u.result = if saltCheck s.opa && keyCheck s.key s.opa then unmixId s.key s.opa else s.result :=
  ⟨_, exec_eq .unmix s, unmixEnd_outcome s s.opa⟩

/-! ### The obligations -/

/-- Settles O17: `unmixStage_of_checks`, its values written out. -/
theorem unmixCompletesWithId : Obligations.UnmixCompletesWithId := by
  intro s c s2 nonce unsalted hsalt hkey
  have hstage := unmixStage_of_checks s ((saltCheck_iff s.opa).mpr hsalt) ((keyCheck_iff s.key s.opa).mpr hkey)
  rw [exec_eq, commandEnd, unmixCommand_eq, unmixEnd, hstage]
  simp only [unmixId, unmixUnsalted, unmixS2_eq]
  rfl

/-- Settles O18: `unmixStage_of_salt_error` and `unmixStage_of_key_error`, their values written out. -/
theorem unmixErrorsInOrder : Obligations.UnmixErrorsInOrder := by
  intro s c s2 unsalted
  refine ⟨fun hsalt => ?_, fun hsalt hkey => ?_⟩
  · have hfail := Bool.eq_false_of_not_eq_true (mt (saltCheck_iff s.opa).mp hsalt)
    rw [exec_eq, commandEnd, unmixCommand_eq, unmixEnd, unmixStage_of_salt_error s hfail]
    simp only [unmixS2_eq]
    rfl
  · have hpass := (saltCheck_iff s.opa).mpr hsalt
    have hfail := Bool.eq_false_of_not_eq_true (mt (keyCheck_iff s.key s.opa).mp hkey)
    rw [exec_eq, commandEnd, unmixCommand_eq, unmixEnd, unmixStage_of_key_error s hpass hfail]
    simp only [unmixUnsalted, unmixS2_eq]
    rfl

/-- Settles O19: with code 0 both checks passed, so RESULT is `unmixId`, whose masked keys cancel. -/
theorem unmixResultInDomain : Obligations.UnmixResultInDomain := by
  intro s t hexec herr
  obtain ⟨u, hu, hcode, hresult⟩ := exec_unmix_outcome s
  obtain rfl := Host.Outcome.next.inj (hu.symm.trans hexec)
  have hchecks : (saltCheck s.opa && keyCheck s.key s.opa) = true := by
    rw [hcode] at herr
    cases hsalt : saltCheck s.opa <;> cases hkey : keyCheck s.key s.opa <;> simp [hsalt, hkey] at herr ⊢
  rw [if_pos hchecks] at hresult
  refine ⟨?_, ?_⟩
  · rw [hresult]
    exact Nat.le_of_lt_succ (toNat_unmixId_lt _ _)
  · rw [hresult, unmixId_eq, unmixS2_eq]
    rfl

end Sys2Proof.Machine
end

section
/-! SUPPORT and PROOFS. The laws of mix and unmix: the class and the id come back, a wrong key and a corrupted value
are reported, and the key shows in one bit (41_mixer.md R124, R131-R134). -/
namespace Sys2Proof.Machine

/-! ### The id over the shifted rand -/

/-- Masking splits over XOR. -/
theorem xor_and_distrib (a b m : Word) : (a ^^^ b) &&& m = (a &&& m) ^^^ (b &&& m) := by
  apply BitVec.eq_of_getLsbD_eq
  intro i _
  simp only [BitVec.getLsbD_and, BitVec.getLsbD_xor, Bool.and_xor_distrib_right]

/-- Two bits changed are compared as before, but for the changes. -/
theorem beq_xor_xor : ∀ a b x y : Bool, ((a ^^ x) == (b ^^ y)) = ((a == b) ^^ (x ^^ y)) := by decide

/-- The shift of rand loses no bit (R113, R122). -/
theorem toNat_shifted_rand (rand : BitVec 5) (c : SizeClass) :
    (rand.setWidth 64 <<< c.saltShift).toNat = rand.toNat <<< c.saltShift := by
  have hrand := rand.isLt
  rw [BitVec.toNat_shiftLeft, BitVec.toNat_setWidth, Nat.mod_eq_of_lt (a := rand.toNat) (by omega)]
  apply Nat.mod_eq_of_lt
  rw [Nat.shiftLeft_eq]
  cases c <;> simp only [SizeClass.saltShift] <;> omega

/-- An id in the domain lies below 2^maskWidth of its class (R110, R112). -/
theorem toNat_lt_maskWidth {id : Word} (hid : id.toNat ≤ 0x00FFFFFFFFFFFFFF) :
    id.toNat < 2 ^ (classify id).maskWidth := by
  obtain ⟨hmax, hc⟩ | ⟨-, hmax, hc⟩ | ⟨-, hc⟩ := classify_cases id <;> rw [hc, SizeClass.maskWidth] <;> omega

section unpadded
variable (id : Word) (rand : BitVec 5)

theorem toNat_unpadded :
    (unpadded id rand).toNat = id.toNat ^^^ rand.toNat <<< (classify id).saltShift := by
  rw [unpadded, BitVec.toNat_xor, toNat_shifted_rand]

/-- Of an id in the domain it stays in the range of the id's class (R123). -/
theorem toNat_unpadded_lt {id : Word} (hid : id.toNat ≤ 0x00FFFFFFFFFFFFFF) :
    (unpadded id rand).toNat < 2 ^ (classify id).maskWidth := by
  rw [toNat_unpadded]
  refine Nat.xor_lt_two_pow (toNat_lt_maskWidth hid) ?_
  have hrand := rand.isLt
  rw [Nat.shiftLeft_eq]
  cases classify id <;> simp only [SizeClass.saltShift, SizeClass.maskWidth] <;> omega

/-- Its bits above the shift are the id's over rand (R124). -/
theorem toNat_unpadded_div :
    (unpadded id rand).toNat / 2 ^ (classify id).saltShift
      = (id.toNat / 2 ^ (classify id).saltShift) ^^^ rand.toNat := by
  rw [toNat_unpadded, ← Nat.shiftRight_eq_div_pow, Nat.shiftRight_xor_distrib, Nat.shiftLeft_shiftRight,
    Nat.shiftRight_eq_div_pow]

/-- Its bits below the shift are the id's (R124). -/
theorem toNat_unpadded_mod :
    (unpadded id rand).toNat % 2 ^ (classify id).saltShift = id.toNat % 2 ^ (classify id).saltShift := by
  rw [toNat_unpadded, Nat.xor_mod_two_pow, Nat.shiftLeft_eq, Nat.mul_mod_left, Nat.xor_zero]

/-- It falls below the shift exactly when the id's bits above it are rand (R132). -/
theorem toNat_unpadded_lt_iff :
    (unpadded id rand).toNat < 2 ^ (classify id).saltShift
      ↔ id.toNat / 2 ^ (classify id).saltShift = rand.toNat := by
  rw [← Nat.div_eq_zero_iff_lt (Nat.two_pow_pos _), toNat_unpadded_div, Nat.xor_eq_zero_iff]

end unpadded

/-! ### The boundary bit -/

/-- A class above Small pads exactly below its shift (R124). -/
theorem needsPad_iff {c : SizeClass} (hc : c ≠ .small) (u : Word) :
    needsPad c u = true ↔ u.toNat < 2 ^ c.saltShift := by
  cases c with
  | small => exact absurd rfl hc
  | medium | large =>
    simp only [needsPad_eq, SizeClass.saltShift]
    simp
    omega

/-- A class that pads is above Small (R124). -/
theorem ne_small_of_needsPad {c : SizeClass} {u : Word} (h : needsPad c u = true) : c ≠ .small := by
  rintro rfl
  cases h

/-- The boundary bit stands above a value that pads (R124). -/
theorem toNat_or_boundaryBit {c : SizeClass} (hc : c ≠ .small) {u : Word} (hu : u.toNat < 2 ^ c.saltShift) :
    (u ||| boundaryBit c).toNat = 2 ^ c.saltShift + u.toNat := by
  have hbit : (boundaryBit c).toNat = 2 ^ c.saltShift * 1 := by
    cases c with
    | small => exact absurd rfl hc
    | medium | large => decide
  rw [BitVec.toNat_or, hbit, Nat.or_comm, ← Nat.two_pow_add_eq_or_of_lt hu, Nat.mul_one]

/-- Unpadding takes the boundary bit off again (R128). -/
theorem unpad_or_boundaryBit {c : SizeClass} (hc : c ≠ .small) {u : Word} (hu : u.toNat < 2 ^ c.saltShift) :
    unpad c true (u ||| boundaryBit c) = u := by
  apply BitVec.eq_of_toNat_eq
  have hor := toNat_or_boundaryBit hc hu
  have hmask : (unpad c true (u ||| boundaryBit c)).toNat = (u ||| boundaryBit c).toNat &&& (2 ^ c.saltShift - 1) := by
    cases c with
    | small => exact absurd rfl hc
    | medium | large => rfl
  rw [hmask, Nat.and_two_pow_sub_one_eq_mod, hor, Nat.add_mod_left, Nat.mod_eq_of_lt hu]

/-- The boundary bit keeps a value of a class's range in the class (R132). -/
theorem classify_pad {c : SizeClass} {u : Word} (hu : u.toNat < 2 ^ c.maskWidth) :
    classify (if needsPad c u then u ||| boundaryBit c else u) = c := by
  by_cases hpad : needsPad c u = true
  · have hc := ne_small_of_needsPad hpad
    have hlow := (needsPad_iff hc u).mp hpad
    have hor := toNat_or_boundaryBit hc hlow
    rw [if_pos hpad, classify_eq]
    cases c with
    | small => exact absurd rfl hc
    | medium =>
      simp only [SizeClass.saltShift] at hlow hor
      rw [if_neg (by omega), if_pos (by omega)]
    | large =>
      simp only [SizeClass.saltShift] at hlow hor
      rw [if_neg (by omega), if_neg (by omega)]
  · rw [if_neg hpad, classify_eq]
    cases c with
    | small =>
      simp only [SizeClass.maskWidth] at hu
      rw [if_pos (by omega)]
    | medium =>
      rw [needsPad_iff (by decide)] at hpad
      simp only [SizeClass.saltShift, SizeClass.maskWidth] at hu hpad
      rw [if_neg (by omega), if_pos (by omega)]
    | large =>
      rw [needsPad_iff (by decide)] at hpad
      simp only [SizeClass.saltShift] at hpad
      rw [if_neg (by omega), if_neg (by omega)]

/-- Padding and unpadding give the value back (R128). -/
theorem unpad_pad (c : SizeClass) (u : Word) :
    unpad c (needsPad c u) (if needsPad c u then u ||| boundaryBit c else u) = u := by
  by_cases hpad : needsPad c u = true
  · have hc := ne_small_of_needsPad hpad
    rw [if_pos hpad, hpad, unpad_or_boundaryBit hc ((needsPad_iff hc u).mp hpad)]
  · rw [if_neg hpad, Bool.eq_false_of_not_eq_true hpad]
    rfl

/-- A Medium id pads exactly when its bits 31:16 are rand, a Large one when its bits 55:32 are (R132). -/
theorem needsPad_unpadded_iff {id : Word} (hid : id.toNat ≤ 0x00FFFFFFFFFFFFFF) (rand : BitVec 5) :
    needsPad (classify id) (unpadded id rand) = true ↔
      (classify id = .medium ∧ id.toNat / 2 ^ 16 % 2 ^ 16 = rand.toNat)
        ∨ (classify id = .large ∧ id.toNat / 2 ^ 32 % 2 ^ 24 = rand.toNat) := by
  have hlt := toNat_unpadded_lt_iff id rand
  obtain ⟨-, hc⟩ | ⟨-, hmax, hc⟩ | ⟨-, hc⟩ := classify_cases id
  · simp [hc, needsPad]
  · rw [needsPad_iff (by simp [hc]), hlt, hc, SizeClass.saltShift, Nat.mod_eq_of_lt (by omega)]
    simp
  · rw [needsPad_iff (by simp [hc]), hlt, hc, SizeClass.saltShift, Nat.mod_eq_of_lt (b := 2 ^ 24) (by omega)]
    simp

section pads
variable {id : Word} {rand : BitVec 5} (hpad : needsPad (classify id) (unpadded id rand) = true)
include hpad

/-- A class that pads has bits above the shift, so rand, which equals them, is not 0 (R132). -/
theorem rand_ne_zero_of_needsPad : rand.toNat ≠ 0 := by
  have hdiv := (toNat_unpadded_lt_iff id rand).mp ((needsPad_iff (ne_small_of_needsPad hpad) _).mp hpad)
  obtain ⟨-, hc⟩ | ⟨hmin, -, hc⟩ | ⟨hmin, hc⟩ := classify_cases id
  · exact absurd hc (ne_small_of_needsPad hpad)
  · rw [hc, SizeClass.saltShift] at hdiv
    omega
  · rw [hc, SizeClass.saltShift] at hdiv
    omega

/-- On the pad path scrambled2 is the id's low part with the boundary bit (R132). -/
theorem padded_of_needsPad :
    padded id rand =
      if classify id = .medium then (id &&& 0xFFFF#64) ||| 0x10000#64
      else (id &&& 0xFFFFFFFF#64) ||| 0x100000000#64 := by
  have hc := ne_small_of_needsPad hpad
  have hlow : (unpadded id rand).toNat = id.toNat % 2 ^ (classify id).saltShift := by
    rw [← toNat_unpadded_mod id rand, Nat.mod_eq_of_lt ((needsPad_iff hc _).mp hpad)]
  rw [padded_eq, if_pos hpad]
  obtain ⟨-, hs⟩ | ⟨-, -, hm⟩ | ⟨-, hl⟩ := classify_cases id
  · exact absurd hs hc
  · rw [hm] at hlow ⊢
    have hand : unpadded id rand = id &&& 0xFFFF#64 :=
      BitVec.eq_of_toNat_eq (hlow.trans (Nat.and_two_pow_sub_one_eq_mod _ 16).symm)
    rw [hand, if_pos rfl, if_pos rfl]
  · rw [hl] at hlow ⊢
    have hand : unpadded id rand = id &&& 0xFFFFFFFF#64 :=
      BitVec.eq_of_toNat_eq (hlow.trans (Nat.and_two_pow_sub_one_eq_mod _ 32).symm)
    rw [hand, if_neg (by decide), if_neg (by decide)]

end pads

/-! ### Unmix of a MixedValue -/

/-- MIX of an id in the domain leaves the MixedValue in RESULT (R125). -/
theorem exec_mix_result {s : State} (hid : s.opa.toNat ≤ 0x00FFFFFFFFFFFFFF) :
    ∃ t : State, exec .mix s = .next t ∧ t.result = (mixCore s.key s.opa s.randDraw).mixed :=
  ⟨_, exec_mix_of_le hid, rfl⟩

section mixed
variable (key k : Word) {id : Word} (hid : id.toNat ≤ 0x00FFFFFFFFFFFFFF) (rand : BitVec 5)
include hid

/-- Bits 63:8 of the MixedValue (R121). -/
theorem mixedScrambled_mixed : mixedScrambled (mixCore key id rand).mixed = padded id rand :=
  (mixedScrambled_mixCore hid key rand).trans (mixCore_s2 key id rand)

/-- MIX keeps the class of the id (R132). -/
theorem unmixClass_mixed : unmixClass (mixCore key id rand).mixed = classify id := by
  rw [unmixClass, mixedScrambled_mixed key hid rand]
  exact classify_pad (toNat_unpadded_lt rand hid)

/-- unmix recovers scrambled2 before its boundary bit (R132). -/
theorem unmixS2_mixed : unmixS2 (mixCore key id rand).mixed = unpadded id rand := by
  rw [unmixS2, unmixClass_mixed key hid rand, mixedScrambled_mixed key hid rand, mixCore_mixed, mixedPad_mixedValue]
  exact unpad_pad _ _

/-- The salt check of a MixedValue passes (R132). -/
theorem saltCheck_mixed : saltCheck (mixCore key id rand).mixed = true := by
  rw [saltCheck, unmixS2_mixed key hid rand, mixCore_mixed, mixedSaltParity_mixedValue, beq_self_eq_true]

/-- With a key k, unsalted is the id over the masked k (R127). -/
theorem unmixUnsalted_mixed :
    unmixUnsalted k (mixCore key id rand).mixed = id ^^^ maskedKey k (classify id) := by
  rw [unmixUnsalted, unmixS2_mixed key hid rand, unmixClass_mixed key hid rand, mixCore_mixed, mixedRand_mixedValue,
    unpadded, salt, BitVec.xor_comm id, BitVec.xor_comm _ (maskedKey _ _), xor_xor_cancel]

/-- With a key k the key check fails exactly when the keys differ in an odd number of masked bits (R133). -/
theorem keyCheck_mixed :
    keyCheck k (mixCore key id rand).mixed = !parity ((key ^^^ k) &&& (classify id).mask) := by
  have hbool : ∀ a b c : Bool, ((a ^^ c) == (b ^^ a)) = !(b ^^ c) := by decide
  rw [keyCheck, unmixUnsalted_mixed key k hid rand, mixCore_mixed, mixedKeyParity_mixedValue, mixCore_s1,
    xor_and_distrib]
  simp only [parity_xor, maskedKey, hbool]

/-- The id comes back whatever the key (R131). -/
theorem unmixId_mixed : unmixId k (mixCore key id rand).mixed = id := by
  rw [unmixId_eq, unmixS2_mixed key hid rand, unmixClass_mixed key hid rand, mixCore_mixed, mixedRand_mixedValue,
    unpadded, BitVec.xor_assoc, BitVec.xor_self, BitVec.xor_zero]

end mixed

/-! ### Unmix of a corrupted value -/

/-- The parity of a shifted rand is that of rand: the shift loses no bit. -/
theorem parity_shifted_rand (c : SizeClass) (d : BitVec 5) :
    parity (d.setWidth 64 <<< c.saltShift) = parity (d.setWidth 64) := by
  revert d
  cases c <;> decide

section tampered
variable (key m : Word) {e : Word}

@[simp] theorem mixedPad_xor : mixedPad (m ^^^ e) = (mixedPad m ^^ mixedPad e) := BitVec.getLsbD_xor

@[simp] theorem mixedKeyParity_xor : mixedKeyParity (m ^^^ e) = (mixedKeyParity m ^^ mixedKeyParity e) :=
  BitVec.getLsbD_xor

@[simp] theorem mixedSaltParity_xor : mixedSaltParity (m ^^^ e) = (mixedSaltParity m ^^ mixedSaltParity e) :=
  BitVec.getLsbD_xor

@[simp] theorem mixedRand_xor : mixedRand (m ^^^ e) = mixedRand m ^^^ mixedRand e := BitVec.extractLsb'_xor

@[simp] theorem mixedScrambled_xor : mixedScrambled (m ^^^ e) = mixedScrambled m ^^^ mixedScrambled e :=
  BitVec.ushiftRight_xor_distrib _ _ _

section low
variable (hhigh : mixedScrambled e = 0#64) (hpad : mixedPad e = false)
include hhigh

theorem unmixClass_lowTampered : unmixClass (m ^^^ e) = unmixClass m := by
  rw [unmixClass, mixedScrambled_xor, hhigh, BitVec.xor_zero, unmixClass]

include hpad

theorem unmixS2_lowTampered : unmixS2 (m ^^^ e) = unmixS2 m := by
  rw [unmixS2, unmixClass_lowTampered m hhigh, mixedPad_xor, mixedScrambled_xor, hhigh, hpad, BitVec.xor_zero,
    Bool.xor_false, unmixS2]

theorem unmixUnsalted_lowTampered :
    unmixUnsalted key (m ^^^ e) =
      unmixUnsalted key m ^^^ ((mixedRand e).setWidth 64 <<< (unmixClass m).saltShift) := by
  rw [unmixUnsalted, unmixS2_lowTampered m hhigh hpad, unmixClass_lowTampered m hhigh, mixedRand_xor, salt,
    BitVec.setWidth_xor, BitVec.shiftLeft_xor_distrib, BitVec.xor_assoc _ _ (maskedKey _ _),
    BitVec.xor_comm _ (maskedKey _ _), ← BitVec.xor_assoc _ (maskedKey _ _), ← salt, ← BitVec.xor_assoc,
    ← unmixUnsalted]

/-- A change of bits 7:3, 1 and 0 turns the salt check over by bit 0 (R134). -/
theorem saltCheck_lowTampered : saltCheck (m ^^^ e) = (saltCheck m ^^ mixedSaltParity e) := by
  have h := beq_xor_xor (parity (unmixS2 m)) (mixedSaltParity m) false (mixedSaltParity e)
  rwa [Bool.xor_false, Bool.false_xor, ← mixedSaltParity_xor, ← saltCheck, ← unmixS2_lowTampered m hhigh hpad,
    ← saltCheck] at h

/-- It turns the key check over by bit 1 and by the parity of the change of rand (R134). -/
theorem keyCheck_lowTampered :
    keyCheck key (m ^^^ e) = (keyCheck key m ^^ (parity ((mixedRand e).setWidth 64) ^^ mixedKeyParity e)) := by
  rw [keyCheck, unmixUnsalted_lowTampered key m hhigh hpad, parity_xor, parity_shifted_rand, mixedKeyParity_xor,
    beq_xor_xor, keyCheck]

/-- It changes the id by the shifted change of rand (R134). -/
theorem unmixId_lowTampered :
    unmixId key (m ^^^ e) = unmixId key m ^^^ ((mixedRand e).setWidth 64 <<< (unmixClass m).saltShift) := by
  rw [unmixId_eq, unmixS2_lowTampered m hhigh hpad, unmixClass_lowTampered m hhigh, mixedRand_xor, BitVec.setWidth_xor,
    BitVec.shiftLeft_xor_distrib, ← BitVec.xor_assoc, ← unmixId_eq]

end low

end tampered

/-- A change of bits 7:3 alone, field by field (R121). -/
theorem fields_of_rand_change :
    ∀ d : BitVec 5, mixedScrambled (d.setWidth 64 <<< 3) = 0#64 ∧ mixedPad (d.setWidth 64 <<< 3) = false
      ∧ mixedRand (d.setWidth 64 <<< 3) = d ∧ mixedKeyParity (d.setWidth 64 <<< 3) = false
      ∧ mixedSaltParity (d.setWidth 64 <<< 3) = false := by
  decide

/-- A change of bits 63:8 that keeps the class and turns an odd number of the recovered bits over fails the salt check
(R134). -/
theorem saltCheck_of_odd_change {m e : Word} (hsalt : saltCheck m = true) (hclass : unmixClass (m ^^^ e) = unmixClass m)
    (hlow : e.extractLsb' 0 8 = 0#8)
    (hodd : parity (recovered (unmixClass m) (m ^^^ e) ^^^ recovered (unmixClass m) m) = true) :
    saltCheck (m ^^^ e) = false := by
  have hbit : e.getLsbD 0 = false := by
    have h := congrArg (BitVec.getLsbD · 0) hlow
    simpa using h
  rw [Bool.eq_false_iff, Ne, saltCheck_iff, hclass, BitVec.getLsbD_xor, hbit, Bool.xor_false,
    ← (saltCheck_iff m).mp hsalt]
  intro heq
  rw [parity_xor, heq, Bool.xor_self] at hodd
  cases hodd

/-! ### The host's view of a MIX -/

/-- The registers other than RESULT read as before when RESULT is written. -/
theorem readReg_setResult (s : State) (v : Word) {r : Reg} (hr : r ≠ .result) :
    State.readReg { s with result := v } r = s.readReg r := by
  cases r with
  | result => exact absurd rfl hr
  | _ => rfl

/-- RESULT is at offset 0x0030 and nowhere else (R64). -/
theorem regAt_eq_result_iff (off : Offset) : regAt off = .result ↔ off = 0x0030#16 :=
  ⟨fun h => BitVec.eq_of_toNat_eq (toNat_eq_of_regAt_eq h rfl), by rintro rfl; rfl⟩

/-- Bits from 8 on of a MixedValue are no control byte's (R121). -/
theorem getLsbD_mixedValue_high (s2 : Word) (cb : BitVec 8) {i : Nat} (hi : 8 ≤ i) :
    (mixedValue s2 cb).getLsbD i = (s2 <<< 8).getLsbD i := by
  simp [mixedValue, hi]

/-- With another key the MixedValue differs in bit 1 at most (R131). -/
theorem getLsbD_mixed (key k id : Word) (rand : BitVec 5) {j : Nat} (hj : j ≠ 1) :
    (mixCore key id rand).mixed.getLsbD j = (mixCore k id rand).mixed.getLsbD j := by
  rw [mixCore_mixed, mixCore_mixed]
  obtain hlow | hhigh := Nat.lt_or_ge j 8
  · simp only [getLsbD_mixedValue _ _ hlow, getLsbD_controlByte, if_neg hj]
  · simp only [getLsbD_mixedValue_high _ _ hhigh]

/-- With TRACE_EN = 0 the mix trace points write nothing (R126). -/
theorem traceMix_of_off {s : State} (hoff : s.traceEn = false) (m : MixStages) : s.traceMix m = s :=
  if_neg (by simp [hoff])

/-! ### The obligations -/

/-- Settles O20: the class, the pad condition and the id come from `classify_pad`, `toNat_unpadded_lt_iff` and
`unmixId_mixed`; with the same key no masked bit differs, so both checks pass. -/
theorem mixThenUnmixGivesId : Obligations.MixThenUnmixGivesId := by
  intro s hid
  obtain ⟨t, hmix, hresult⟩ := exec_mix_result hid
  obtain ⟨u, hunmix, hcode, hid'⟩ := exec_unmix_outcome { t with key := s.key, opa := t.result }
  have hkey : keyCheck s.key t.result = true := by
    rw [hresult, keyCheck_mixed s.key s.key hid, BitVec.xor_self, BitVec.zero_and]
    rfl
  have hsalt : saltCheck t.result = true := by rw [hresult, saltCheck_mixed s.key hid]
  have hrand : mixedRand t.result = s.randDraw := by rw [hresult, mixCore_mixed, mixedRand_mixedValue]
  have hpad : mixedPad t.result = needsPad (classify s.opa) (unpadded s.opa s.randDraw) := by
    rw [hresult, mixCore_mixed, mixedPad_mixedValue]
  have hclass : classify (mixedScrambled t.result) = classify s.opa :=
    hresult ▸ unmixClass_mixed s.key hid s.randDraw
  have hscrambled : mixedScrambled t.result = padded s.opa s.randDraw :=
    hresult ▸ mixedScrambled_mixed s.key hid s.randDraw
  refine ⟨t, u, hmix, hclass, ?_, fun hpadded => ?_, hunmix, ?_, ?_⟩
  · rw [hpad, hrand]
    exact needsPad_unpadded_iff hid s.randDraw
  · rw [hpad] at hpadded
    rw [hrand, hscrambled]
    exact ⟨rand_ne_zero_of_needsPad hpadded, padded_of_needsPad hpadded⟩
  · rw [hcode, hsalt, hkey]
    rfl
  · rw [hid', hsalt, hkey]
    exact hresult ▸ unmixId_mixed s.key s.key hid s.randDraw

/-- Settles O21: `saltCheck_mixed` passes whatever the key, and `keyCheck_mixed` decides. -/
theorem wrongKeyIsCaughtOrHarmless : Obligations.WrongKeyIsCaughtOrHarmless := by
  intro s k hid _
  obtain ⟨t, hmix, hresult⟩ := exec_mix_result hid
  obtain ⟨u, hunmix, hcode, hid'⟩ := exec_unmix_outcome { t with key := k, opa := t.result }
  have hsalt : saltCheck t.result = true := by rw [hresult, saltCheck_mixed s.key hid]
  have hkey : keyCheck k t.result = !parity ((s.key ^^^ k) &&& (classify s.opa).mask) := by
    rw [hresult, keyCheck_mixed s.key k hid]
  have hback : unmixId k t.result = s.opa := by rw [hresult, unmixId_mixed s.key k hid]
  simp only [hsalt, hkey, hback] at hcode hid'
  refine ⟨t, u, hmix, hunmix, fun hodd => ?_, fun heven => ?_⟩
  · exact ⟨by simpa [hodd] using hcode, by simpa [hodd] using hid'⟩
  · exact ⟨by simpa [heven] using hcode, by simpa [heven] using hid'⟩

/-- Settles O22: a change of the low byte that keeps paddingFlag turns the checks over as `saltCheck_lowTampered` and
`keyCheck_lowTampered` say; one of bits 63:8 leaves saltParity and changes the parity it is compared with. -/
theorem tamperOutcomes : Obligations.TamperOutcomes := by
  intro s e hid
  obtain ⟨t, hmix, hresult⟩ := exec_mix_result hid
  obtain ⟨u, hunmix, hcode, hid'⟩ := exec_unmix_outcome { t with key := s.key, opa := t.result ^^^ e }
  have hkey : keyCheck s.key t.result = true := by
    rw [hresult, keyCheck_mixed s.key s.key hid, BitVec.xor_self, BitVec.zero_and]
    rfl
  have hsalt : saltCheck t.result = true := by rw [hresult, saltCheck_mixed s.key hid]
  have hback : unmixId s.key t.result = s.opa := by rw [hresult, unmixId_mixed s.key s.key hid]
  have hclass : unmixClass t.result = classify s.opa := by rw [hresult, unmixClass_mixed s.key hid]
  refine ⟨t, u, hmix, hunmix, ?_, ?_, ?_, ?_⟩
  · rintro rfl
    rw [hcode]
    simp only [saltCheck_lowTampered t.result (e := 1#64) rfl rfl, hsalt]
    rfl
  · rintro rfl
    rw [hcode]
    simp only [saltCheck_lowTampered t.result (e := 2#64) rfl rfl, hsalt,
      keyCheck_lowTampered s.key t.result (e := 2#64) rfl rfl, hkey]
    rfl
  · rintro d - rfl
    obtain ⟨hhigh, hpad, hrand, hkeyBit, hsaltBit⟩ := fields_of_rand_change d
    simp only [saltCheck_lowTampered t.result hhigh hpad, hsalt, hsaltBit,
      keyCheck_lowTampered s.key t.result hhigh hpad, hkey, hkeyBit,
      unmixId_lowTampered s.key t.result hhigh hpad, hback, hclass, hrand] at hcode hid'
    refine ⟨fun hodd => by simpa [hodd] using hcode, fun heven => ?_⟩
    exact ⟨by simpa [heven] using hcode, by simpa [heven] using hid'⟩
  · intro hlow hkept hodd
    have hfail := saltCheck_of_odd_change hsalt (hkept.trans hclass.symm) hlow (by rwa [hclass])
    rw [hcode, hfail]
    rfl

/-- Settles O23: `getLsbD_mixed`; every other register, KEY after its zeroing among them, is the same in the two
states. -/
theorem mixShowsKeyInOneBit : Obligations.MixShowsKeyInOneBit := by
  intro s k hoff
  obtain hid | habove := le_or_gt s.opa.toNat 0x00FFFFFFFFFFFFFF
  · refine ⟨_, _, exec_mix_of_le hid, exec_mix_of_le (s := { s with key := k }) hid, fun off hne => ?_, fun j hj =>
      getLsbD_mixed s.key k s.opa s.randDraw hj⟩
    have hr : regAt off ≠ .result := mt (regAt_eq_result_iff off).mp hne
    rw [traceMix_of_off (by exact hoff), traceMix_of_off (by exact hoff)]
    exact (readReg_setResult (s.afterDraw.complete true .ok) _ hr).trans
      (readReg_setResult (s.afterDraw.complete true .ok) _ hr).symm
  · exact ⟨_, _, exec_mix_of_lt habove, exec_mix_of_lt (s := { s with key := k }) habove, fun _ _ => rfl,
      fun _ _ => rfl⟩

end Sys2Proof.Machine
end

section
/-! SUPPORT and PROOFS. The register map, what each register reads as, and what a write does (20_memory.md R63-R70;
10_state.md R24-R43, R45). -/
namespace Sys2Proof.Machine

/-! ### The register map -/

/-- A table entry inside its table is where its offset says (R64). -/
theorem slotAt_entry (entry : Nat → Reg) (base size : Nat) (hbase : base % 8 = 0) {i : Nat} (hi : i < size) :
    slotAt entry base size (base + 8 * i) = entry i := by
  have hslot : (base + 8 * i - base) / 8 = i := by omega
  rw [slotAt, hslot, if_pos ⟨by omega, hi⟩]

/-- The map has ALPHA_STAGE[i] at 0x1000 + 8i (R64). -/
theorem regAt_alphaStage {i : Nat} (hi : i < 256) : regAt (BitVec.ofNat 16 (0x1000 + 8 * i)) = .alphaStage i := by
  have ho : (BitVec.ofNat 16 (0x1000 + 8 * i)).toNat = 0x1000 + 8 * i := Nat.mod_eq_of_lt (by omega)
  simp only [regAt, ho]
  rw [if_neg (by omega), if_pos (by omega)]
  exact slotAt_entry .alphaStage 0x1000 Config.alphaMax rfl hi

/-- The map has CODEC_TAB[i] at 0x2000 + 8i (R64). -/
theorem regAt_codecTab {i : Nat} (hi : i < 256) : regAt (BitVec.ofNat 16 (0x2000 + 8 * i)) = .codecTab i := by
  have ho : (BitVec.ofNat 16 (0x2000 + 8 * i)).toNat = 0x2000 + 8 * i := Nat.mod_eq_of_lt (by omega)
  simp only [regAt, ho]
  rw [if_neg (by omega), if_neg (by omega), if_pos (by omega)]
  exact slotAt_entry .codecTab 0x2000 Config.alphaMax rfl hi

/-- The map has STR[i] at 0x3000 + 8i (R64). -/
theorem regAt_str {i : Nat} (hi : i < 128) : regAt (BitVec.ofNat 16 (0x3000 + 8 * i)) = .str i := by
  have ho : (BitVec.ofNat 16 (0x3000 + 8 * i)).toNat = 0x3000 + 8 * i := Nat.mod_eq_of_lt (by omega)
  simp only [regAt, ho]
  rw [if_neg (by omega), if_neg (by omega), if_neg (by omega), if_pos (by omega)]
  exact slotAt_entry .str 0x3000 Config.strMax rfl hi

/-- The offset of a register names that register (R64). -/
theorem regAt_of_offset {r : Reg} {o : Nat} (h : r.offset = some o) :
    o < 2 ^ 16 ∧ o % 8 = 0 ∧ regAt (BitVec.ofNat 16 o) = r := by
  cases r with
  | alphaStage i =>
    obtain ⟨hi, rfl⟩ : i < Config.alphaMax ∧ 0x1000 + 8 * i = o := by simpa [Reg.offset] using h
    simp only [Config.alphaMax] at hi
    exact ⟨by omega, by omega, regAt_alphaStage hi⟩
  | codecTab i =>
    obtain ⟨hi, rfl⟩ : i < Config.alphaMax ∧ 0x2000 + 8 * i = o := by simpa [Reg.offset] using h
    simp only [Config.alphaMax] at hi
    exact ⟨by omega, by omega, regAt_codecTab hi⟩
  | str i =>
    obtain ⟨hi, rfl⟩ : i < Config.strMax ∧ 0x3000 + 8 * i = o := by simpa [Reg.offset] using h
    simp only [Config.strMax] at hi
    exact ⟨by omega, by omega, regAt_str hi⟩
  | unmapped => cases h
  | _ =>
    obtain rfl := Option.some.inj h
    decide

/-- The map has a register at its offset and nowhere else (R64). -/
theorem regAt_eq_iff {r : Reg} {o : Nat} (h : r.offset = some o) (off : Offset) : regAt off = r ↔ off.toNat = o := by
  refine ⟨fun hr => toNat_eq_of_regAt_eq hr h, fun ho => ?_⟩
  obtain ⟨-, -, hr⟩ := regAt_of_offset h
  rwa [← ho, BitVec.ofNat_toNat, BitVec.setWidth_eq] at hr

/-! ### Writes -/

/-- While BUSY = 0 a write to any offset but STATUS writes the register (R67). -/
theorem hostWrite_of_idle {s : State} (hb : s.busy = false) {off : Offset} {r : Reg} (hr : regAt off = r)
    (hstatus : r ≠ .status) (v : Word) : s.hostWrite off v = s.writeReg r v := by
  subst hr
  rw [State.hostWrite, if_neg hstatus, if_neg (by simp [hb])]

/-- While BUSY = 0 a write to CMD issues a command (R70). -/
theorem hostWrite_cmd_of_idle {s : State} (hb : s.busy = false) (v : Word) :
    s.hostWrite 0x0000#16 v = s.issue v :=
  hostWrite_of_idle hb (r := .cmd) rfl (by decide) v

/-- While BUSY = 0 a write to KEY stores the key (R67). -/
theorem hostWrite_key_of_idle {s : State} (hb : s.busy = false) (v : Word) :
    s.hostWrite 0x0020#16 v = { s with key := v } :=
  hostWrite_of_idle hb (r := .key) rfl (by decide) v

/-- While BUSY = 1 a write to any offset but STATUS is lost (R68). -/
theorem hostWrite_of_busy {s : State} (hb : s.busy = true) {off : Offset} (hstatus : off ≠ 0x0008#16) (v : Word) :
    s.hostWrite off v = { s with lost := true } := by
  rw [State.hostWrite, if_neg (mt (regAt_eq_status_iff off).mp hstatus), if_pos hb]

/-- While BUSY = 0 a write to ALPHA_STAGE[i] stores bits 31:0 there (R67). -/
theorem hostWrite_alphaStage {s : State} (hb : s.busy = false) {i : Nat} (hi : i < 256) (v : Word) :
    s.hostWrite (BitVec.ofNat 16 (0x1000 + 8 * i)) v =
      { s with alphaStage := s.alphaStage.write i (v.setWidth 32) } :=
  hostWrite_of_idle hb (regAt_alphaStage hi) (by simp) v

/-- While BUSY = 0 a write to STR[i] stores bits 31:0 there (R67). -/
theorem hostWrite_str {s : State} (hb : s.busy = false) {i : Nat} (hi : i < 128) (v : Word) :
    s.hostWrite (BitVec.ofNat 16 (0x3000 + 8 * i)) v = { s with str := s.str.write i (v.setWidth 32) } :=
  hostWrite_of_idle hb (regAt_str hi) (by simp) v

/-- Bits 31:0 of a word, written as a bit range (R9). -/
theorem setWidth_32_eq (v : Word) : v.setWidth 32 = v.extractLsb' 0 32 := by
  rw [BitVec.setWidth_eq_extractLsb' (by decide)]

/-! ### Reads -/

/-- After a write to ALPHA_STAGE[i] every other register reads as before (R67). -/
theorem readReg_write_alphaStage (s : State) (i : Nat) (c : CharCode) (r : Reg) :
    State.readReg { s with alphaStage := s.alphaStage.write i c } r =
      if r = .alphaStage i then c.setWidth 64 else s.readReg r := by
  cases r with
  | alphaStage j =>
    simp only [State.readReg, Table.read_write, Reg.alphaStage.injEq]
    split <;> rfl
  | _ => rfl

/-- After a write to STR[i] every other register reads as before (R67). -/
theorem readReg_write_str (s : State) (i : Nat) (c : CharCode) (r : Reg) :
    State.readReg { s with str := s.str.write i c } r = if r = .str i then c.setWidth 64 else s.readReg r := by
  cases r with
  | str j =>
    simp only [State.readReg, Table.read_write, Reg.str.injEq]
    split <;> rfl
  | _ => rfl

/-- PARAMS at the reference parameters (R5, R30). -/
theorem paramsWord_eq : paramsWord = 0x0000002000800100#64 := by decide

/-- Bits appended are digits in base a power of 2. -/
theorem toNat_append_eq {n m : Nat} (x : BitVec n) (y : BitVec m) : (x ++ y).toNat = x.toNat * 2 ^ m + y.toNat := by
  rw [BitVec.toNat_append, ← Nat.shiftLeft_add_eq_or_of_lt y.isLt, Nat.shiftLeft_eq]

/-- STATUS as a number, field by field (R24). -/
theorem toNat_statusWord (s : State) :
    s.statusWord.toNat = s.busy.toNat + 2 * s.codecValid.toNat + 4 * s.lost.toNat + 256 * s.errCode.toNat := by
  refine (toNat_append_eq (_ ++ BitVec.ofBool s.codecValid) (BitVec.ofBool s.busy)).trans ?_
  simp only [toNat_append_eq, BitVec.toNat_ofBool, BitVec.toNat_zero]
  omega

/-- CTRL as a number, field by field (R29). -/
theorem toNat_ctrlWord (s : State) : s.ctrlWord.toNat = s.randMode.toNat + 2 * s.traceEn.toNat := by
  unfold State.ctrlWord
  cases s.randMode <;> cases s.traceEn <;> rfl

/-- In the reset state every register but PARAMS reads 0 (R45), the table entries because nothing is listed. -/
theorem readReg_reset (r : Reg) (hr : r ≠ .params) : State.reset.readReg r = 0#64 := by
  cases r with
  | params => exact absurd rfl hr
  | codecTab i => simp [State.readReg, State.reset]
  | _ => rfl

/-! ### The obligations -/

/-- Settles O36: `regAt_offset` one way, `regAt_of_offset` the other. -/
theorem registerMapHasNoOverlap : Obligations.RegisterMapHasNoOverlap :=
  ⟨fun off hmapped => (regAt_offset off).resolve_left hmapped, fun _ _ h => regAt_of_offset h⟩

/-- Settles O38: each offset's register reads its field; STATUS and CTRL as numbers. -/
theorem controlRegistersReadTheirFields : Obligations.ControlRegistersReadTheirFields := by
  intro s
  refine ⟨rfl, toNat_statusWord s, toNat_ctrlWord s, paramsWord_eq, rfl, rfl, rfl, rfl, rfl, ?_, rfl, rfl, rfl, ?_, rfl,
    rfl, rfl⟩
  · exact BitVec.toNat_setWidth_of_le (by decide)
  · exact BitVec.toNat_setWidth_of_le (by decide)

/-- Settles O39: the offsets of the tables name their entries, and a write to one entry leaves every other register. -/
theorem tableEntriesReadAndWrite : Obligations.TableEntriesReadAndWrite := by
  intro s i v
  have hzext : ∀ c : CharCode, (c.setWidth 64).toNat = c.toNat := fun c => BitVec.toNat_setWidth_of_le (by decide)
  refine ⟨fun hi => ⟨?_, ?_, fun hb off => ?_⟩, fun hi => ⟨?_, fun hb off => ?_⟩⟩
  · rw [State.hostRead, regAt_alphaStage hi]
    exact hzext _
  · rw [State.hostRead, regAt_codecTab hi, State.readReg]
    split
    · exact hzext _
    · rfl
  · have hoff := regAt_eq_iff (r := .alphaStage i) (if_pos hi) off
    rw [hostWrite_alphaStage hb hi, State.hostRead, readReg_write_alphaStage, setWidth_32_eq]
    simp only [hoff, State.hostRead]
  · rw [State.hostRead, regAt_str hi]
    exact hzext _
  · have hoff := regAt_eq_iff (r := .str i) (if_pos hi) off
    rw [hostWrite_str hb hi, State.hostRead, readReg_write_str, setWidth_32_eq]
    simp only [hoff, State.hostRead]

/-- Settles O40: `hostWrite_of_idle` at each offset. -/
theorem writesWhileIdle : Obligations.WritesWhileIdle := by
  intro s v hb
  refine ⟨hostWrite_cmd_of_idle hb v, ?_, hostWrite_of_idle hb (r := .ctrl) rfl (by decide) v,
    hostWrite_key_of_idle hb v, hostWrite_of_idle hb (r := .opa) rfl (by decide) v, ?_,
    hostWrite_of_idle hb (r := .alphaStageLen) rfl (by decide) v,
    hostWrite_of_idle hb (r := .strLen) rfl (by decide) v, fun i hi => ?_, fun i hi => ?_, ?_, fun i hi => ?_,
    fun off hu => hostWrite_of_idle hb hu (by decide) v⟩
  · rw [hostWrite_status, State.writeStatus]
    cases v.getLsbD 2 <;> simp
  · rw [hostWrite_of_idle hb (r := .randOvr) rfl (by decide), State.writeReg,
      BitVec.setWidth_eq_extractLsb' (by decide)]
  · rw [hostWrite_alphaStage hb hi, setWidth_32_eq]
  · rw [hostWrite_str hb hi, setWidth_32_eq]
  · intro off hoff
    fin_cases hoff <;> exact hostWrite_of_idle hb rfl (by decide) v
  · exact hostWrite_of_idle hb (regAt_codecTab hi) (by simp) v

/-- Settles O41: `hostWrite_of_busy`. -/
theorem writeWhileBusyIsLost : Obligations.WriteWhileBusyIsLost :=
  fun _ _ v hb hoff => hostWrite_of_busy hb hoff v

/-- Settles O44: `readReg_reset`, PARAMS being at offset 0x0018 alone. -/
theorem resetStateReadsZero : Obligations.ResetStateReadsZero := by
  refine ⟨rfl, rfl, fun off hoff _ => readReg_reset _ fun hparams => hoff ?_⟩
  exact BitVec.eq_of_toNat_eq (toNat_eq_of_regAt_eq hparams rfl)

/-- Settles O43: `resetEvent` lists the values of R45, and each table is tabulated from its free values. -/
theorem resetEventSetsEveryRegister : Obligations.ResetEventSetsEveryRegister := by
  intro s ha
  refine ⟨s.popTurn.resetEvent, by rw [step_eq, ha]; rfl, rfl, fun i hi => ⟨?_, ?_⟩, fun i hi => ?_⟩
  · exact (Table.read_tabulate _ _ _ _).trans (if_pos ⟨Nat.zero_le i, by simpa [Config.alphaMax] using hi⟩)
  · exact (Table.read_tabulate _ _ _ _).trans (if_pos ⟨Nat.zero_le i, by simpa [Config.alphaMax] using hi⟩)
  · exact (Table.read_tabulate _ _ _ _).trans (if_pos ⟨Nat.zero_le i, by simpa [Config.strMax] using hi⟩)

end Sys2Proof.Machine
end

section
/-! SUPPORT and PROOFS. The Facade: ENCODE and DECODE as the two stages in a row, and their round trip (43_facade.md
R200-R202). -/
namespace Sys2Proof.Machine

/-! ### ENCODE -/

/-- The mix stage of an id in the domain (R123). -/
theorem mixStage_of_le {s : State} (hid : s.opa.toNat ≤ 0x00FFFFFFFFFFFFFF) :
    mixStage s =
      (s.afterDraw.traceMix (mixCore s.key s.opa s.randDraw), .ok (mixCore s.key s.opa s.randDraw).mixed) :=
  if_neg (Nat.not_lt.mpr hid)

/-- The mix stage of an id above the domain (R123). -/
theorem mixStage_of_lt {s : State} (hid : 0x00FFFFFFFFFFFFFF < s.opa.toNat) :
    mixStage s = (s, .error (.domain s.opa)) := if_pos hid

/-- ENCODE of an id in the domain: the MixedValue in RESULT and its string in STR (R200). -/
theorem exec_encode_of_le {s : State} (hv : s.codecValid = true) (hid : s.opa.toNat ≤ 0x00FFFFFFFFFFFFFF) :
    exec .encode s = .next
      ({ (s.afterDraw.traceMix (mixCore s.key s.opa s.randDraw)).writeString
            (encodeDigits s.alphabet (mixCore s.key s.opa s.randDraw).mixed) with
          result := (mixCore s.key s.opa s.randDraw).mixed }.complete true .ok) := by
  rw [exec_eq, commandEnd, encodeCommand, if_pos hv, mixStage_of_le hid, Instr.keyed]

/-! ### DECODE -/

/-- UNMIX of a value after the completion of a CODEC_DECODE (R201). -/
theorem exec_unmix_of_value (s : State) (v : Word) :
    exec .unmix { s with opa := v, busy := false, errCode := 0x00#8, errInfo0 := 0#64, errInfo1 := 0#64 } =
      .next ({ (unmixEnd s v).1 with opa := v }.complete true (unmixEnd s v).2) := by
  rw [exec_eq, commandEnd, unmixCommand_eq, unmixEnd_eq, unmixEnd_eq]
  rfl

/-- A command issued is the one that the Engine completes (R70, R93). -/
theorem engineTurn_issue (s : State) (i : Instr) :
    engineTurn (s.issue (Sys2Proof.encode i)) = exec i (s.issue (Sys2Proof.encode i)) := by
  rw [engineTurn_of_busy rfl, completeStep, issue_cmd, decode_encode]

/-- The code and RESULT of a DECODE whose codec stage gives a value, by the two checks in their order (R201). -/
theorem exec_decode_outcome {s : State} {v : Word} (h : s.decodeStage = .ok v) :
    ∃ u : State, exec .decode s = .next u
      ∧ u.errCode = (if saltCheck v then if keyCheck s.key v then 0x00#8 else 0x07#8 else 0x06#8)
      ∧ u.result = if saltCheck v && keyCheck s.key v then unmixId s.key v else s.result := by
  refine ⟨_, exec_eq .decode s, ?_⟩
  rw [commandEnd, decodeCommand_of_value h]
  exact unmixEnd_outcome s v

/-- After an ENCODE the string is the MixedValue's, whatever is written to KEY and CMD (R202). -/
theorem decodeStage_after_encode {s : State} (hwf : s.codecWf = true) (hv : s.codecValid = true)
    (hid : s.opa.toNat ≤ 0x00FFFFFFFFFFFFFF) :
    ∃ t : State, exec .encode s = .next t ∧ t.busy = false
      ∧ ∀ k w : Word, (State.issue { t with key := k } w).decodeStage
          = .ok (mixCore s.key s.opa s.randDraw).mixed := by
  refine ⟨_, exec_encode_of_le hv hid, rfl, fun k w => ?_⟩
  rw [traceMix_eq]
  exact decodeStage_writeString hwf hv _

/-- DECODE of a MixedValue gives the id back, or the key check fails: exactly when the keys differ in an odd number of
masked bits (R133, R202). -/
theorem exec_decode_mixed {key id : Word} (hid : id.toNat ≤ 0x00FFFFFFFFFFFFFF) {rand : BitVec 5} {s : State}
    (hstage : s.decodeStage = .ok (mixCore key id rand).mixed) :
    ∃ u : State, exec .decode s = .next u
      ∧ (parity ((key ^^^ s.key) &&& (classify id).mask) = true → u.errCode = 0x07#8)
      ∧ (parity ((key ^^^ s.key) &&& (classify id).mask) = false → u.errCode = 0x00#8 ∧ u.result = id) := by
  obtain ⟨u, hu, hcode, hresult⟩ := exec_decode_outcome hstage
  simp only [saltCheck_mixed key hid, keyCheck_mixed key _ hid, unmixId_mixed key _ hid] at hcode hresult
  refine ⟨u, hu, fun hodd => by simpa [hodd] using hcode, fun heven => ?_⟩
  exact ⟨by simpa [heven] using hcode, by simpa [heven] using hresult⟩

/-! ### The obligations -/

/-- Settles O32: after the mix stage, CODEC_ENCODE of RESULT writes the string that ENCODE writes. -/
theorem encodeIsMixThenCodecEncode : Obligations.EncodeIsMixThenCodecEncode := by
  intro s hv
  refine ⟨fun hid => ?_, fun hid => ?_⟩
  · have hmix := exec_mix_of_le hid
    have hencode := exec_encode_of_le hv hid
    rw [traceMix_eq] at hmix hencode
    exact ⟨_, _, hmix, exec_codecEncode_of_valid hv, hencode⟩
  · rw [exec_eq, commandEnd, encodeCommand, if_pos hv, mixStage_of_lt hid]
    rfl

/-- Settles O33: the codec stage's error or value is that of DECODE, and the unmix stage does not depend on what the
completion of CODEC_DECODE writes. -/
theorem decodeIsCodecDecodeThenUnmix : Obligations.DecodeIsCodecDecodeThenUnmix := by
  intro s
  cases hstage : s.decodeStage with
  | error e =>
    have hne : e.code ≠ 0x00#8 := mt (Completion.code_eq_zero_iff e).mp (decodeStage_error_ne_ok hstage)
    refine ⟨_, exec_codecDecode_of_error hstage, fun _ => ?_, fun hzero => absurd hzero hne⟩
    rw [exec_eq, commandEnd, decodeCommand_of_error hstage]
    rfl
  | ok v =>
    refine ⟨_, exec_codecDecode_of_ok hstage, fun hne => absurd rfl hne, fun _ => ⟨_, exec_unmix_of_value s v, ?_⟩⟩
    rw [exec_eq, commandEnd, decodeCommand_of_value hstage, unmixEnd_eq]
    rfl

/-- Settles O34: `decodeStage_of_value` gives the value and `unmixStage_of_checks` the id. -/
theorem decodeCompletesWithId : Obligations.DecodeCompletesWithId := by
  intro s ds hwf hv hlen hds hvalue v c nonce unsalted hsalt hkey
  have hstage : s.decodeStage = .ok v := decodeStage_of_value hwf hv hlen hds hvalue
  rw [exec_eq, commandEnd, decodeCommand_of_value hstage, unmixEnd,
    unmixStage_of_checks s ((saltCheck_iff v).mpr hsalt) ((keyCheck_iff s.key v).mpr hkey)]
  simp only [unmixId, unmixUnsalted, unmixS2_eq]
  rfl

/-- Settles O35: DECODE finds the MixedValue in STR; with KEY written again no masked bit differs, and without it
`exec_decode_mixed` has the two outcomes. -/
theorem encodeThenDecodeGivesId : Obligations.EncodeThenDecodeGivesId := by
  intro s hwf hv hid
  obtain ⟨t, hencode, hidle, hstage⟩ := decodeStage_after_encode hwf hv hid
  obtain ⟨u, hu, -, huid⟩ := exec_decode_mixed hid (hstage s.key 0x21#64)
  obtain ⟨v, hv, hvkey, hvid⟩ := exec_decode_mixed hid (hstage t.key 0x21#64)
  have hsame : parity ((s.key ^^^ s.key) &&& (classify s.opa).mask) = false := by
    rw [BitVec.xor_self, BitVec.zero_and]
    rfl
  obtain ⟨hucode, huresult⟩ := huid hsame
  refine ⟨t, u, v, hencode, ?_, hucode, huresult, ?_, ?_⟩
  · rw [hostWrite_key_of_idle hidle, hostWrite_cmd_of_idle (by exact hidle), ← hu]
    exact engineTurn_issue _ .decode
  · rw [hostWrite_cmd_of_idle hidle, ← hv]
    exact engineTurn_issue _ .decode
  · cases hodd : parity ((s.key ^^^ t.key) &&& (classify s.opa).mask)
    · exact .inl (hvid hodd)
    · exact .inr (hvkey hodd)

end Sys2Proof.Machine
end

section
/-! SUPPORT and PROOFS. Steps: the Engine's turn, a pending command while the Host moves, and when a step is refused
(20_memory.md R62, R68, R72; 30_encoding.md R93). -/
namespace Sys2Proof.Machine

/-! ### Turns -/

/-- A step of the Host (R8). -/
theorem step_of_host {s : State} (h : s.agent = .host) : step s = hostTurn s.popTurn := by
  rw [step_eq, h, agentTurn]

/-- A step of the Engine with a pending command (R93). -/
theorem step_of_engine {s : State} (h : s.agent = .engine) (hb : s.busy = true) : step s = completeStep s.popTurn := by
  rw [step_eq, h]
  exact engineTurn_of_busy (s := s.popTurn) hb

/-- With a pending command the Engine moves when it is first in the order or none is given (log entry 6). -/
theorem agent_eq_engine {s : State} (hb : s.busy = true) (hturns : s.turns = [] ∨ s.turns.head? = some .engine) :
    s.agent = .engine := by
  unfold State.agent
  obtain h | h := hturns
  · rw [h]
    exact if_pos hb
  · obtain ⟨rest, h⟩ := List.head?_eq_some_iff.mp h
    rw [h]

/-- The Complete step of a word that decodes (R93). -/
theorem completeStep_of_decode {s : State} {i : Instr} (h : Sys2Proof.decode s.cmd = .ok i) :
    completeStep s = exec i s := by
  rw [completeStep, h]

/-- The Complete step always answers a next state (R93, R94). -/
theorem completeStep_next (s : State) : ∃ t : State, completeStep s = .next t := by
  obtain ⟨i, -, h⟩ | ⟨e, -, h⟩ := completeStep_cases s
  · exact ⟨_, h.trans (exec_eq i s)⟩
  · exact ⟨_, h⟩

/-- A run of n + 1 steps that answers a next state took a last step after a run of n. -/
theorem run_succ_last {n : Nat} {s u : State} (h : Host.Core.run core (n + 1) s = .next u) :
    ∃ t : State, Host.Core.run core n s = .next t ∧ step t = .next u := by
  induction n generalizing s with
  | zero =>
    obtain ⟨t, hstep, hrun⟩ := run_succ_cases h
    exact ⟨s, rfl, hstep.trans hrun⟩
  | succ n ih =>
    obtain ⟨s', hstep, hrun⟩ := run_succ_cases h
    obtain ⟨t, hrun', hlast⟩ := ih hrun
    exact ⟨t, (run_succ_next n hstep).trans hrun', hlast⟩

/-! ### Commands do not see LOST, the Host and the order of turns -/

section rehost
variable (s : State) (lost : Bool) (host : HostSide) (turns : List Agent)

theorem mixStage_rehost :
    mixStage { s with lost := lost, host := host, turns := turns } =
      ({ (mixStage s).1 with lost := lost, host := host, turns := turns }, (mixStage s).2) := by
  obtain hid | hid := le_or_gt s.opa.toNat 0x00FFFFFFFFFFFFFF
  · rw [mixStage_of_le hid, mixStage_of_le (by exact hid), traceMix_eq, traceMix_eq]
    rfl
  · rw [mixStage_of_lt hid, mixStage_of_lt (by exact hid)]

theorem unmixEnd_rehost (m : Word) :
    unmixEnd { s with lost := lost, host := host, turns := turns } m =
      ({ (unmixEnd s m).1 with lost := lost, host := host, turns := turns }, (unmixEnd s m).2) := by
  rw [unmixEnd_eq, unmixEnd_eq]

/-- A command's pseudocode leaves the three alone and does not depend on them (R44). -/
theorem commandEnd_rehost (i : Instr) :
    commandEnd i { s with lost := lost, host := host, turns := turns } =
      ({ (commandEnd i s).1 with lost := lost, host := host, turns := turns }, (commandEnd i s).2) := by
  have hmix := mixStage_rehost s lost host turns
  have hunmix := unmixEnd_rehost s lost host turns
  cases i with
  | mix =>
    rw [commandEnd, commandEnd, mixCommand, mixCommand, hmix]
    obtain ⟨t, _ | _⟩ := mixStage s <;> rfl
  | unmix => exact hunmix s.opa
  | classify => rfl
  | codecNew =>
    have hcandidate : State.candidate { s with lost := lost, host := host, turns := turns } = s.candidate := rfl
    rw [commandEnd, commandEnd, codecNewCommand, codecNewCommand, hcandidate]
    split
    · rfl
    · cases firstRepeat [] 0 s.candidate with
      | some r => rfl
      | none =>
        simp only
        split <;> rfl
  | codecEncode =>
    rw [commandEnd, commandEnd, codecEncodeCommand, codecEncodeCommand]
    split <;> rfl
  | codecDecode =>
    have hstage : State.decodeStage { s with lost := lost, host := host, turns := turns } = s.decodeStage := rfl
    rw [commandEnd, commandEnd, codecDecodeCommand, codecDecodeCommand, hstage]
    cases s.decodeStage <;> rfl
  | encode =>
    rw [commandEnd, commandEnd, encodeCommand, encodeCommand, hmix]
    split
    · obtain ⟨t, _ | _⟩ := mixStage s <;> rfl
    · rfl
  | decode =>
    cases hstage : s.decodeStage with
    | error e =>
      rw [commandEnd, commandEnd, decodeCommand_of_error hstage, decodeCommand_of_error (by exact hstage)]
    | ok v =>
      rw [commandEnd, commandEnd, decodeCommand_of_value hstage, decodeCommand_of_value (by exact hstage)]
      exact hunmix v

/-- The Complete step leaves the three alone and does not depend on them (R44, R93). -/
theorem completeStep_rehost {t : State} (h : completeStep s = .next t) :
    completeStep { s with lost := lost, host := host, turns := turns } =
      .next { t with lost := lost, host := host, turns := turns } := by
  obtain ⟨i, hi, hc⟩ | ⟨e, he, hc⟩ := completeStep_cases s
  · obtain rfl := Host.Outcome.next.inj ((hc.trans (exec_eq i s)).symm.trans h)
    rw [completeStep_of_decode (by exact hi), exec_eq, commandEnd_rehost]
    rfl
  · obtain rfl := Host.Outcome.next.inj (hc.symm.trans h)
    simp only [completeStep, he]
    rfl

end rehost

/-! ### A pending command while the Host moves -/

/-- While BUSY = 1 a turn of the Host changes LOST and the Host alone (R68). -/
theorem hostTurn_of_busy {s t : State} (hb : s.busy = true) (h : hostTurn s = .next t) :
    ∃ lost host, t = { s with lost := lost, host := host } := by
  obtain ⟨off, width, e, -, rfl⟩ | ⟨-, host, rfl⟩ := hostTurn_write_or_frame h
  · obtain ⟨-, hw⟩ | ⟨-, -, hw⟩ | ⟨-, hidle, -⟩ := hostWrite_cases s off (e.eval s.host)
    · exact ⟨_, _, by rw [hw]; rfl⟩
    · exact ⟨_, _, by rw [hw]⟩
    · simp [hb] at hidle
  · exact ⟨_, _, rfl⟩

/-- While BUSY = 1 any number of Host turns changes LOST and the Host alone (R44). -/
theorem run_hostTurns_of_busy {n : Nat} {s t : State} (hb : s.busy = true) (hturns : s.turns = List.replicate n .host)
    (h : Host.Core.run core n s = .next t) : ∃ lost host, t = { s with lost := lost, host := host, turns := [] } := by
  induction n generalizing s with
  | zero =>
    obtain rfl := Host.Outcome.next.inj h
    have hnil : s.turns = [] := hturns
    exact ⟨s.lost, s.host, by rw [← hnil]⟩
  | succ n ih =>
    obtain ⟨s', hstep, hrun⟩ := run_succ_cases h
    rw [List.replicate_succ] at hturns
    have hagent : s.agent = .host := by rw [State.agent, hturns]
    rw [step_of_host hagent] at hstep
    obtain ⟨lost, host, rfl⟩ := hostTurn_of_busy (s := s.popTurn) hb hstep
    have htail : s.turns.tail = List.replicate n .host := by rw [hturns, List.tail_cons]
    obtain ⟨lost', host', rfl⟩ := ih (s := { s.popTurn with lost := lost, host := host }) hb htail hrun
    exact ⟨lost', host', rfl⟩

/-! ### Refusal -/

/-- An access is outside the interface when it is not 8 bytes wide or not at a multiple of 8 (R62). -/
theorem accessLegal_eq_false_iff (off : Offset) (width : Nat) :
    accessLegal off width = false ↔ width ≠ 8 ∨ off.toNat % 8 ≠ 0 := by
  simp only [accessLegal, Bool.and_eq_false_iff, beq_eq_false_iff_ne]

/-- The Host's line makes the access (R96). -/
def HostSide.accesses (h : HostSide) (off : Offset) (width : Nat) : Prop :=
  (∃ e : HostExpr, h.line = some (.wr off width e)) ∨ ∃ x : Nat, h.line = some (.rd off width x)

/-- A turn of the Host is refused exactly for an access outside the interface, and else answers a next state (R62). -/
theorem hostTurn_refused_or_next (s : State) :
    (∃ off width, accessLegal off width = false ∧ s.host.accesses off width
        ∧ hostTurn s = .refused (.accessOutsideInterface off width))
    ∨ ((∀ off width, s.host.accesses off width → accessLegal off width = true) ∧ ∃ t, hostTurn s = .next t) := by
  unfold hostTurn HostSide.accesses
  cases hl : s.host.line with
  | none => exact .inr ⟨by simp, _, rfl⟩
  | some st =>
    cases st with
    | wr off width e =>
      cases ha : accessLegal off width
      · exact .inl ⟨off, width, ha, .inl ⟨e, rfl⟩, if_neg (by simp [ha])⟩
      · exact .inr ⟨by simp [ha], _, if_pos ha⟩
    | rd off width x =>
      cases ha : accessLegal off width
      · exact .inl ⟨off, width, ha, .inr ⟨x, rfl⟩, if_neg (by simp [ha])⟩
      · exact .inr ⟨by simp [ha], _, if_pos ha⟩
    | branch cmp a b p => exact .inr ⟨by simp, _, rfl⟩
    | jump p => exact .inr ⟨by simp, _, rfl⟩
    | assign x e => exact .inr ⟨by simp, _, rfl⟩

/-- A step is a turn of the Host that is refused, or answers a next state. -/
theorem step_refused_or_next (s : State) :
    (s.agent = .host ∧ ∃ off width, accessLegal off width = false ∧ s.host.accesses off width
        ∧ step s = .refused (.accessOutsideInterface off width))
    ∨ ((s.agent = .host → ∀ off width, s.host.accesses off width → accessLegal off width = true)
        ∧ ∃ t, step s = .next t) := by
  cases ha : s.agent with
  | host =>
    rw [step_of_host ha]
    obtain ⟨off, width, hillegal, hacc, h⟩ | ⟨hlegal, h⟩ := hostTurn_refused_or_next s.popTurn
    · exact .inl ⟨rfl, off, width, hillegal, hacc, h⟩
    · exact .inr ⟨fun _ => hlegal, h⟩
  | engine =>
    refine .inr ⟨nofun, ?_⟩
    rw [step_eq, ha, agentTurn, engineTurn]
    split
    · exact completeStep_next _
    · exact ⟨_, rfl⟩
  | reset => exact .inr ⟨nofun, _, by rw [step_eq, ha, agentTurn]⟩

/-- A well-formed host program makes no access outside the interface (R96). -/
theorem accessLegal_of_hostProgramWf {h : HostSide} (hwf : hostProgramWf h.prog = true) {off : Offset} {width : Nat}
    (hacc : h.accesses off width) : accessLegal off width = true := by
  have hline : ∀ st, h.line = some st → st.wf h.prog.length = true := fun st hst =>
    List.all_eq_true.mp hwf st (List.mem_of_getElem? hst)
  obtain ⟨e, hl⟩ | ⟨x, hl⟩ := hacc <;>
  · have hst := hline _ hl
    simp only [HostStmt.wf, accessWf, Bool.and_eq_true] at hst
    tauto

/-! ### The obligations -/

/-- Settles O4: the Engine's turn with a pending command is its Complete step, and a placed word is the command's. -/
theorem stepRunsDecodedCommand : Obligations.StepRunsDecodedCommand := by
  have hstep : ∀ (s : State) (i : Instr), s.busy = true → (s.turns = [] ∨ s.turns.head? = some .engine) →
      Sys2Proof.decode s.cmd = .ok i → step s = exec i s.popTurn := fun s i hb hturns hi => by
    rw [step_of_engine (agent_eq_engine hb hturns) hb, completeStep_of_decode (s := s.popTurn) hi]
  refine ⟨hstep, fun s i => hstep (s.withFetchWord 64 _) i rfl (.inl rfl) ?_⟩
  have hword : tableWord 64 (Sys2Proof.encode i).toNat = Sys2Proof.encode i := by
    rw [tableWord, Nat.mod_eq_of_lt (Sys2Proof.encode i).isLt, BitVec.ofNat_toNat, BitVec.setWidth_eq]
  rw [State.withFetchWord, hword]
  exact decode_encode i

/-- Settles O51: `run_hostTurns_of_busy`. -/
theorem pendingCommandIsFrozen : Obligations.PendingCommandIsFrozen := by
  intro n s t hb hturns hrun
  obtain ⟨lost, host, rfl⟩ := run_hostTurns_of_busy hb hturns hrun
  exact ⟨rfl, rfl, rfl⟩

/-- Settles O52: after the Host turns the Complete step is the Engine's, and it does not depend on what they changed. -/
theorem completionWaitsWithoutChange : Obligations.CompletionWaitsWithoutChange := by
  intro n s u hb hturns hrun
  obtain ⟨t', hrun', hstep⟩ := run_succ_last hrun
  obtain ⟨lost, host, rfl⟩ := run_hostTurns_of_busy hb hturns hrun'
  obtain ⟨t, ht⟩ := completeStep_next s
  have hengine := step_of_engine (s := { s with lost := lost, host := host, turns := [] })
    (agent_eq_engine hb (.inl rfl)) hb
  have hcomplete := completeStep_rehost s lost host [] ht
  obtain rfl := Host.Outcome.next.inj ((hengine.trans hcomplete).symm.trans hstep)
  exact ⟨t, ht, rfl, rfl⟩

/-- Settles O53: of a step's outcomes `step_refused_or_next` leaves two, and a well-formed program's accesses are of the
interface. -/
theorem onlyIllegalAccessIsRefused : Obligations.OnlyIllegalAccessIsRefused := by
  refine ⟨fun s => ?_, fun s hwf => ?_⟩
  · simp only [← accessLegal_eq_false_iff]
    obtain ⟨ha, off, width, hillegal, hacc, h⟩ | ⟨hlegal, t, h⟩ := step_refused_or_next s
    · exact ⟨fun _ => ⟨ha, off, width, hillegal, hacc⟩, fun _ => ⟨_, h⟩⟩
    · refine ⟨fun ⟨r, hr⟩ => ?_, fun ⟨ha, off, width, hillegal, hacc⟩ => ?_⟩
      · rw [h] at hr
        cases hr
      · rw [hlegal ha off width hacc] at hillegal
        cases hillegal
  · obtain ⟨-, off, width, hillegal, hacc, -⟩ | ⟨-, hnext⟩ := step_refused_or_next s
    · rw [accessLegal_of_hostProgramWf hwf hacc] at hillegal
      cases hillegal
    · exact hnext

end Sys2Proof.Machine
end

section
/-! SUPPORT and PROOFS. The lines of a host program, and the pseudo-instructions wait and ldalpha and the boot sequence
(30_encoding.md R96, R97; 20_memory.md R78, R79; 70_reset_and_hazards.md R262). -/
namespace Sys2Proof.Machine

/-! ### One line -/

/-- The lines from the Host's position on. -/
def HostSide.remaining (h : HostSide) : List HostStmt := h.prog.drop h.pos

/-- The first of the remaining lines is the Host's line. -/
theorem line_of_remaining {h : HostSide} {st : HostStmt} {rest : List HostStmt} (hr : h.remaining = st :: rest) :
    h.line = some st := by
  rw [HostSide.line, ← List.head?_drop, ← HostSide.remaining, hr, List.head?_cons]

/-- After the Host's line the others remain. -/
theorem remaining_advance {h : HostSide} {st : HostStmt} {rest : List HostStmt} (hr : h.remaining = st :: rest) :
    h.advance.remaining = rest := by
  have htail := List.tail_drop (l := h.prog) (i := h.pos)
  rw [← HostSide.remaining, hr, List.tail_cons] at htail
  exact htail.symm

/-- A write line at an aligned offset (R96). -/
theorem hostTurn_of_wr {s : State} {off : Offset} {e : HostExpr} (hl : s.host.line = some (.wr off 8 e))
    (ho : off.toNat % 8 = 0) :
    hostTurn s = .next { s.hostWrite off (e.eval s.host) with host := s.host.advance } := by
  rw [hostTurn, hl]
  exact if_pos (by simp [accessLegal, ho])

/-- A read line at an aligned offset (R96). -/
theorem hostTurn_of_rd {s : State} {off : Offset} {x : Nat} (hl : s.host.line = some (.rd off 8 x))
    (ho : off.toNat % 8 = 0) :
    hostTurn s = .next { s with host := (s.host.set x (s.hostRead off)).advance } := by
  rw [hostTurn, hl]
  exact if_pos (by simp [accessLegal, ho])

/-- A branch line (R96). -/
theorem hostTurn_of_branch {s : State} {cmp : HostCmp} {a b : HostExpr} {p : Nat}
    (hl : s.host.line = some (.branch cmp a b p)) :
    hostTurn s = .next { s with host := { s.host with
      pos := if cmp.holds (a.eval s.host) (b.eval s.host) then p else s.host.pos + 1 } } := by
  simp only [hostTurn, hl]
  split <;> rfl

/-- A goto line (R96). -/
theorem hostTurn_of_jump {s : State} {p : Nat} (hl : s.host.line = some (.jump p)) :
    hostTurn s = .next { s with host := { s.host with pos := p } } := by
  rw [hostTurn, hl]
  rfl

/-- A set line (R96). -/
theorem hostTurn_of_assign {s : State} {x : Nat} {e : HostExpr} (hl : s.host.line = some (.assign x e)) :
    hostTurn s = .next { s with host := (s.host.set x (e.eval s.host)).advance } := by
  rw [hostTurn, hl]

/-- With no line left a turn of the Host changes nothing (R79). -/
theorem hostTurn_of_none {s : State} (hl : s.host.line = none) : hostTurn s = .next s := by
  rw [hostTurn, hl]

/-- The host comparisons are those of unsigned values (R96). -/
theorem HostCmp.holds_eq (a b : Word) : HostCmp.eq.holds a b = decide (a.toNat = b.toNat) :=
  decide_eq_decide.mpr BitVec.toNat_inj.symm

theorem HostCmp.holds_ne (a b : Word) : HostCmp.ne.holds a b = decide (a.toNat ≠ b.toNat) :=
  (congrArg not (HostCmp.holds_eq a b)).trans decide_not.symm

theorem HostCmp.holds_lt (a b : Word) : HostCmp.lt.holds a b = decide (a.toNat < b.toNat) := rfl

/-! ### Steps with no order of turns given -/

/-- With no turn listed a step takes none (log entry 6). -/
theorem popTurn_of_nil {s : State} (hturns : s.turns = []) : s.popTurn = s := by
  rw [State.popTurn, hturns, List.tail_nil, ← hturns]

/-- With no order of turns given a pending command completes at once (log entry 6). -/
theorem step_of_pending {s : State} {i : Instr} (hb : s.busy = true) (hturns : s.turns = [])
    (hi : Sys2Proof.decode s.cmd = .ok i) : step s = exec i s := by
  rw [step_of_engine (agent_eq_engine hb (.inl hturns)) hb, popTurn_of_nil hturns, completeStep_of_decode hi]

section idle
variable {s : State} (hb : s.busy = false) (hturns : s.turns = [])
include hb hturns

/-- On an idle block with no order of turns given a step is a turn of the Host (log entry 6). -/
theorem step_of_idle : step s = hostTurn s := by
  have hagent : s.agent = .host := by
    rw [State.agent, hturns]
    exact if_neg (by simp [hb])
  rw [step_of_host hagent, popTurn_of_nil hturns]

/-- A step at a line that writes a register other than STATUS (R67, R96). -/
theorem step_of_wr {off : Offset} {r : Reg} {e : HostExpr} {rest : List HostStmt}
    (hr : s.host.remaining = wrReg off e :: rest) (ho : off.toNat % 8 = 0) (hreg : regAt off = r)
    (hstatus : r ≠ .status) :
    step s = .next { s.writeReg r (e.eval s.host) with host := s.host.advance } := by
  rw [step_of_idle hb hturns, hostTurn_of_wr (line_of_remaining hr) ho, hostWrite_of_idle hb hreg hstatus]

end idle

/-! ### wait -/

/-- Bit 0 of STATUS is BUSY (R24). -/
theorem statusWord_bit0 (s : State) : (s.statusWord.extractLsb' 0 1).setWidth 64 = (1#64 : Word) ↔ s.busy = true := by
  have hstatus := toNat_statusWord s
  have hbit : ((s.statusWord.extractLsb' 0 1).setWidth 64 : Word).toNat = s.busy.toNat := by
    rw [BitVec.toNat_setWidth_of_le (by decide), BitVec.extractLsb'_toNat, hstatus]
    cases s.busy <;> simp <;> omega
  rw [← BitVec.toNat_inj, hbit]
  cases s.busy <;> decide

/-- The first line of a wait reads STATUS (R97). -/
theorem hostTurn_wait_read {s : State} {p x : Nat} {rest : List HostStmt}
    (hr : s.host.remaining = waitLines p x ++ rest) :
    hostTurn s = .next { s with host := (s.host.set x s.statusWord).advance } :=
  hostTurn_of_rd (line_of_remaining hr) (by decide)

/-- After the read the variable holds the value read and the second line is next (R97). -/
theorem after_wait_read {h : HostSide} {p x : Nat} {rest : List HostStmt} (hr : h.remaining = waitLines p x ++ rest)
    (v : Word) :
    (h.set x v).advance.get x = v
      ∧ (h.set x v).advance.remaining = .branch .eq (.bits x 0 0) (.lit 1#64) p :: rest :=
  ⟨(h.get_set x x v).trans (if_pos rfl), remaining_advance (h := h.set x v) hr⟩

/-- The second line of a wait goes back when the value read has bit 0 set (R97). -/
theorem hostTurn_wait_branch {s : State} {p x : Nat} {rest : List HostStmt} (hx : s.host.get x = s.statusWord)
    (hr : s.host.remaining = .branch .eq (.bits x 0 0) (.lit 1#64) p :: rest) :
    hostTurn s = .next { s with host := { s.host with pos := if s.busy then p else s.host.pos + 1 } } := by
  have hcond : HostCmp.holds .eq ((HostExpr.bits x 0 0).eval s.host) ((HostExpr.lit 1#64).eval s.host) = s.busy := by
    rw [Bool.eq_iff_iff, ← statusWord_bit0 s, ← hx]
    exact beq_iff_eq
  rw [hostTurn_of_branch (line_of_remaining hr), hcond]

/-! ### ldalpha -/

/-- Two runs in a row. -/
theorem run_add {s t : State} {m : Nat} (n : Nat) (h : Host.Core.run core m s = .next t) :
    Host.Core.run core (m + n) s = Host.Core.run core n t := by
  induction m generalizing s with
  | zero =>
    obtain rfl := Host.Outcome.next.inj h
    rw [Nat.zero_add]
  | succ m ih =>
    obtain ⟨s', hstep, hrun⟩ := run_succ_cases h
    rw [Nat.add_right_comm, run_succ_next _ hstep, ih hrun]

/-- A character written to a table's slot by a host program is stored as it is (R96, R97). -/
theorem setWidth_char (c : CharCode) : (c.setWidth 64).setWidth 32 = c := by
  rw [BitVec.setWidth_setWidth_of_le _ (by decide), BitVec.setWidth_eq]

/-- The write lines of a string to ALPHA_STAGE from entry i on, run on an idle block with no order of turns given
(R97). -/
theorem run_charLines {s : State} {i : Nat} {cs : List CharCode} {rest : List HostStmt} (hb : s.busy = false)
    (hturns : s.turns = []) (hi : i + cs.length ≤ 256)
    (hr : s.host.remaining = charLines (BitVec.ofNat 16 (0x1000 + 8 * i)) cs ++ rest) :
    Host.Core.run core cs.length s = .next { s with
      alphaStage := s.alphaStage.writeFrom i cs, host := { s.host with pos := s.host.pos + cs.length } }
    ∧ HostSide.remaining { s.host with pos := s.host.pos + cs.length } = rest := by
  induction cs generalizing s i with
  | nil => exact ⟨rfl, hr⟩
  | cons c cs ih =>
    rw [List.length_cons] at hi
    have ho : (BitVec.ofNat 16 (0x1000 + 8 * i)).toNat % 8 = 0 := by
      rw [BitVec.toNat_ofNat]
      omega
    have hstep := step_of_wr hb hturns hr ho (regAt_alphaStage (by omega)) (by simp)
    rw [HostExpr.eval, State.writeReg, setWidth_char] at hstep
    have hnext : BitVec.ofNat 16 (0x1000 + 8 * i) + 8#16 = BitVec.ofNat 16 (0x1000 + 8 * (i + 1)) := by
      rw [← BitVec.ofNat_add]
      rfl
    have hrest := remaining_advance hr
    rw [List.append_eq, hnext] at hrest
    obtain ⟨hrun, hremaining⟩ := ih (i := i + 1) (s := { s with
      alphaStage := s.alphaStage.write i c, host := s.host.advance }) hb hturns (by omega) hrest
    have hpos : s.host.advance.pos + cs.length = s.host.pos + (cs.length + 1) := by
      simp only [HostSide.advance]
      omega
    rw [hpos] at hrun hremaining
    exact ⟨(run_succ_next _ hstep).trans hrun, hremaining⟩

/-- ldalpha of at most ALPHA_MAX characters, run on an idle block with no order of turns given (R97). -/
theorem run_ldalpha {s : State} {cs : List CharCode} {rest : List HostStmt} (hb : s.busy = false)
    (hturns : s.turns = []) (hlen : cs.length ≤ 256) (hr : s.host.remaining = ldalphaLines cs ++ rest) :
    Host.Core.run core (cs.length + 1) s = .next { s with
      alphaStage := s.alphaStage.writeFrom 0 cs, alphaStageLen := BitVec.ofNat 64 cs.length
      host := { s.host with pos := s.host.pos + cs.length + 1 } }
    ∧ HostSide.remaining { s.host with pos := s.host.pos + cs.length + 1 } = rest := by
  rw [ldalphaLines, List.append_assoc] at hr
  obtain ⟨hrun, hremaining⟩ := run_charLines (i := 0) hb hturns (by omega) hr
  have hstep := step_of_wr (s := { s with
    alphaStage := s.alphaStage.writeFrom 0 cs, host := { s.host with pos := s.host.pos + cs.length } })
    hb hturns hremaining (by decide) (r := .alphaStageLen) rfl (by decide)
  exact ⟨(run_add 1 hrun).trans (run_succ_next 0 hstep), remaining_advance hremaining⟩

/-! ### The boot sequence -/

/-- A string written from entry 0 on is what the first entries hold. -/
theorem Table.entries_writeFrom (t : Table) (cs : List CharCode) : (t.writeFrom 0 cs).entries cs.length = cs := by
  apply List.ext_getElem
  · simp
  · intro i _ hi
    rw [Table.getElem_entries, Table.read_writeFrom, if_pos (by omega)]
    simp [hi]

/-- `run M` on an idle block with no order of turns given: the write to CMD, and the Complete step at once (R93, R97;
log entry 6). -/
theorem run_issue {s : State} {i : Instr} {rest : List HostStmt} (hb : s.busy = false) (hturns : s.turns = [])
    (hr : s.host.remaining = cmdLines i ++ rest) :
    Host.Core.run core 2 s = exec i { s.issue (Sys2Proof.encode i) with host := s.host.advance } := by
  have hwrite := step_of_wr hb hturns hr (by decide) (r := .cmd) rfl (by decide)
  have hcomplete := step_of_pending (s := { s.issue (Sys2Proof.encode i) with host := s.host.advance }) rfl hturns
    (decode_encode i)
  rw [exec_eq] at hcomplete ⊢
  exact (run_succ_next 1 hwrite).trans (run_succ_next 0 hcomplete)

/-- A wait on an idle block with no order of turns given falls through (R97). -/
theorem run_wait {s : State} {p x : Nat} {rest : List HostStmt} (hb : s.busy = false) (hturns : s.turns = [])
    (hr : s.host.remaining = waitLines p x ++ rest) :
    ∃ vars, Host.Core.run core 2 s = .next { s with host := { s.host with pos := s.host.pos + 2, vars := vars } } := by
  have hread := (step_of_idle hb hturns).trans (hostTurn_wait_read hr)
  obtain ⟨hx, hr'⟩ := after_wait_read hr s.statusWord
  have hbranch := (step_of_idle (s := { s with host := (s.host.set x s.statusWord).advance }) hb hturns).trans
    (hostTurn_wait_branch hx hr')
  have hpos : (if s.busy then p else s.host.pos + 2) = s.host.pos + 2 := if_neg (by simp [hb])
  refine ⟨(s.host.set x s.statusWord).vars, ?_⟩
  rw [← hpos]
  exact (run_succ_next 1 hread).trans (run_succ_next 0 hbranch)

/-! ### The obligations -/

/-- Settles O54: `hostTurn_of_rd` changes the Host alone, and `HostSide.get_set` is what its variables hold. -/
theorem hostReadHasNoSideEffect : Obligations.HostReadHasNoSideEffect := by
  intro s off x ho hl
  exact ⟨_, hostTurn_of_rd hl ho, rfl, rfl, rfl, fun y => s.host.get_set x y _⟩

/-- Settles O55: one lemma per kind of line. -/
theorem hostControlLinesStayInHost : Obligations.HostControlLinesStayInHost := by
  intro s
  refine ⟨fun x e hl => ?_, fun p hl => hostTurn_of_jump hl, fun cmp a b p hl => ?_⟩
  · exact ⟨_, hostTurn_of_assign hl, rfl, rfl, fun y => s.host.get_set x y _⟩
  · rw [hostTurn_of_branch hl]
    cases cmp with
    | eq => rw [HostCmp.holds_eq]
    | ne => rw [HostCmp.holds_ne]
    | lt => rw [HostCmp.holds_lt]

/-- Settles O56: the read leaves STATUS in the variable, and the branch asks its bit 0. -/
theorem waitLoopsWhileBusy : Obligations.WaitLoopsWhileBusy := by
  intro s before after x hprog hpos hturns
  have hr : s.host.remaining = waitLines before.length x ++ after := by
    rw [HostSide.remaining, hprog, hpos, List.append_assoc, List.drop_left]
  have hagent : s.agent = .host := by rw [State.agent, hturns]
  have hread := (step_of_host hagent).trans (hostTurn_wait_read (s := s.popTurn) hr)
  have hturns' : s.popTurn.turns = [.host] := by rw [popTurn_turns, hturns, List.tail_cons]
  obtain ⟨hx, hr'⟩ := after_wait_read hr s.statusWord
  have hagent' : State.agent { s.popTurn with host := (s.host.set x s.statusWord).advance } = .host := by
    simp only [State.agent, hturns']
  have hbranch := (step_of_host hagent').trans (hostTurn_wait_branch (by exact hx) (by exact hr'))
  refine ⟨_, ((run_succ_next 1 hread).trans (run_succ_next 0 hbranch)).trans rfl, rfl, rfl, hx, ?_⟩
  simp only [popTurn_busy, ← hpos]
  rfl

/-- Settles O57: `run_ldalpha`, and `Table.read_writeFrom` for what ALPHA_STAGE holds. -/
theorem ldalphaLoadsAlphabet : Obligations.LdalphaLoadsAlphabet := by
  intro s before after cs hlen hprog hpos hturns hb
  have hr : s.host.remaining = ldalphaLines cs ++ after := by
    rw [HostSide.remaining, hprog, hpos, List.append_assoc, List.drop_left]
  obtain ⟨hrun, -⟩ := run_ldalpha hb hturns hlen hr
  refine ⟨_, hrun, by rw [hpos], fun i hi => ?_, fun i hi => ?_⟩
  · rw [Table.read_writeFrom, if_pos (by omega)]
    simp [hi]
  · rw [Table.read_writeFrom, if_neg (by omega)]

/-- Settles O58: `run_ldalpha`, `run_issue` and `run_wait` in a row; between them CODEC_NEW commits the string, which
has no repeat. -/
theorem bootCommitsCodec : Obligations.BootCommitsCodec := by
  intro s after cs x hmin hmax hnodup hprog hpos hturns hb
  have hr : s.host.remaining =
      ldalphaLines cs ++ (cmdLines .codecNew ++ (waitLines (cs.length + 2) x ++ after)) := by
    rw [HostSide.remaining, hprog, hpos, List.drop_zero, runLines, List.append_assoc, List.append_assoc]
  obtain ⟨hload, hr1⟩ := run_ldalpha hb hturns hmax hr
  let s1 : State := { s with
    alphaStage := s.alphaStage.writeFrom 0 cs, alphaStageLen := BitVec.ofNat 64 cs.length
    host := { s.host with pos := s.host.pos + cs.length + 1 } }
  let s2 : State := { s1.issue (Sys2Proof.encode .codecNew) with host := s1.host.advance }
  have hlen : s2.alphaStageLen.toNat = cs.length := Nat.mod_eq_of_lt (by omega)
  have hcandidate : s2.candidate = cs := by
    rw [State.candidate, hlen]
    exact Table.entries_writeFrom _ _
  have hdistinct : firstRepeat [] 0 s2.candidate = none :=
    (firstRepeat_eq_none_iff _ _ _).mpr ⟨hcandidate ▸ hnodup, by simp⟩
  have hcommit : exec .codecNew s2 = .next (s2.commitCodec.complete false .ok) := by
    rw [exec_eq, commandEnd, codecNewCommand_of_distinct (hlen ▸ hmin) (hlen.trans_le hmax) hdistinct, Instr.keyed]
  have hissue := (run_issue (s := s1) hb hturns hr1).trans hcommit
  obtain ⟨vars, hwait⟩ := run_wait (s := s2.commitCodec.complete false .ok) rfl hturns (remaining_advance hr1)
  refine ⟨_, (run_add 4 hload).trans ((run_add 2 hissue).trans hwait), rfl, rfl, rfl, ?_, rfl, ?_⟩
  · exact (commitCodec_alphabet (hlen.trans_le hmax)).trans hcandidate
  · simp only [complete_host, commitCodec_host, s2, s1, HostSide.advance, hpos]
    omega

/-- Settles O59: by `lostIsSticky` only a HostWrite to another offset than STATUS made while BUSY = 1 sets LOST, and
such a line breaks a duty. -/
theorem dutifulHostLosesNoWrite : Obligations.DutifulHostLosesNoWrite := by
  intro s t ha hduties hstep hlost
  have h := lostIsSticky s t hstep
  rw [ha, hlost] at h
  cases hl : s.host.line with
  | none => simpa [hl] using h.symm
  | some st =>
    cases st with
    | wr off width e =>
      by_cases hoff : off = 0x0008#16
      · simp only [hl, if_pos hoff] at h
        exact (Bool.and_eq_true_iff.mp h.symm).1
      · have hstatus : regAt off ≠ .status := mt (regAt_eq_status_iff off).mp hoff
        simp only [State.hostKeepsDuties, hl, Bool.and_eq_true] at hduties
        obtain ⟨hwrite, -⟩ := hduties
        have hidle : s.busy = false := by simpa [hstatus] using hwrite
        simpa [hl, hoff, hidle] using h.symm
    | rd off width x => simpa [hl] using h.symm
    | branch cmp a b p => simpa [hl] using h.symm
    | jump p => simpa [hl] using h.symm
    | assign x e => simpa [hl] using h.symm

/-- Settles O60: the step is the Host's, which has no line left. -/
theorem runOverStaysOver : Obligations.RunOverStaysOver := by
  intro s hover hturns
  obtain ⟨hb, hl⟩ : s.busy = false ∧ s.host.line = none := by simpa [State.runOver] using hover
  rw [step_of_idle hb hturns, hostTurn_of_none hl]

end Sys2Proof.Machine
end
